-- ==== Sys2Proof/Word.lean ====
section
/-! DEFINITION. The value types of the block: bytes, the operation word, the operand bus, frames and payloads
(spec/00_scope.md R10, spec/30_encoding.md R51, R58). Frames are sixteen bytes, not one wide number; the packing on a
128-bit bus is a separate function (Machine/Operands.lean). -/

namespace Sys2Proof

/-- R10: `u8`. -/
abbrev Byte := BitVec 8

/-- R51: the 32-bit operation word `op`. -/
abbrev OpWord := BitVec 32

/-- R51: the 128-bit operand bus `buf_in`, and the data of an event that carries a frame (R69). -/
abbrev Bus := BitVec 128

/-- R10: `u16`, a command parameter or a 16-bit frame field. -/
abbrev Param := BitVec 16

/-- R57, R58: a frame is exactly 16 bytes; `f[0]` is the first byte on the wire (R10, R38). -/
abbrev Frame := Vector Byte 16

/-- R60, R65: bytes 2 to 13 of a response frame, none of which the receiver checks. -/
abbrev Payload := Vector Byte 12

end Sys2Proof
end

