-- ==== Sys2Proof/Machine/Constants.lean ====
section
/-! DEFINITION. The fixed constants of spec/00_scope.md R8 and the code letters of R13. None is configurable (D13). The
hex values of the letters are ASCII, which the spec marks as general knowledge (K1; log 16). -/

namespace Sys2Proof

/-- R8 FRAME_LEN: every frame is exactly 16 bytes. -/
def frameLen : Nat := 16

/-- R8 MARKER: byte 0 of every frame. -/
def marker : Byte := 0x0F#8

/-- R8 TERMINATOR: byte 15 of every frame. -/
def terminator : Byte := 0x00#8

/-- R13 'r'. -/
def codeR : Byte := 0x72#8

/-- R13 'v'. -/
def codeV : Byte := 0x76#8

/-- R13 's'. -/
def codeS : Byte := 0x73#8

/-- R13 'F'. -/
def codeF : Byte := 0x46#8

/-- R13 'P'. -/
def codeP : Byte := 0x50#8

/-- R13 'I'. -/
def codeI : Byte := 0x49#8

/-- R8, R62 RESP_CODES: the codes the receiver accepts at byte 1. -/
def respCodes : List Byte := [codeR, codeV, codeS]

/-- R8, R61 CMD_CODES: the codes the host uses in command frames. The serializer does not check them (R64). -/
def cmdCodes : List Byte := [codeR, codeV, codeF, codeP, codeI]

end Sys2Proof
end

