-- ==== Sys2Proof/Machine/Flags.lean ====
section
/-! DEFINITION. The block has no flag that persists (spec/10_state.md R30). What takes their place are the checks on one
frame, pure functions of spec/40_codec.md: the checksum (R80), isValidFrame (R81) and the receiver's four-condition
acceptance (spec/41_receiver.md R94). The checksum is an 8-bit sum, not a CRC (spec/90_conflicts.md C1). -/

namespace Sys2Proof

/-- R80: the exact sum of bytes 1 through 13, before truncation. -/
def checksumSum (f : Frame) : Nat :=
  f[1].toNat + f[2].toNat + f[3].toNat + f[4].toNat + f[5].toNat + f[6].toNat + f[7].toNat
    + f[8].toNat + f[9].toNat + f[10].toNat + f[11].toNat + f[12].toNat + f[13].toNat

/-- R80: the 8-bit sum of bytes 1 through 13. -/
def checksum (f : Frame) : Byte := BitVec.ofNat 8 (checksumSum f)

/-- R81: checksum byte and terminator right; the marker and the code are not checked (C3). -/
def isValidFrame (f : Frame) : Bool := f[14] == checksum f && f[15] == terminator

/-- R94: the four conditions under which the receiver accepts a frame. -/
def accept (f : Frame) : Bool := f[0] == marker && respCodes.contains f[1] && isValidFrame f

end Sys2Proof
end

