-- ==== Sys2Proof/Machine/Operands.lean ====
section
/-! DEFINITION. Operand assembly: the fields of the operation word (spec/30_encoding.md R52, R55), byte order of 16-bit
fields (spec/00_scope.md R11, spec/20_memory.md R37) and the packing of a frame on a 128-bit bus (R39). No operand is
sign-extended, scaled or shifted (R55). -/

namespace Sys2Proof

/-- R52, R55: RX_BYTE's byte `B = op[7:0]`. -/
def opByte (w : OpWord) : Byte := w.extractLsb' 0 8

/-- R52, R55: TX_ENCODE's code `op[23:16]`. -/
def opCode (w : OpWord) : Byte := w.extractLsb' 16 8

/-- R52, R55: TX_ENCODE's parameter `op[15:0]`. -/
def opParam (w : OpWord) : Param := w.extractLsb' 0 16

/-- R11, R37: the value of a little-endian pair, `lo` at the lower offset. -/
def le16 (lo hi : Byte) : Param := BitVec.ofNat 16 (lo.toNat + 256 * hi.toNat)

/-- R40: `param[7:0]`, the byte at the lower offset. -/
def loByte (v : Param) : Byte := v.extractLsb' 0 8

/-- R40: `param[15:8]`, the byte at the higher offset. -/
def hiByte (v : Param) : Byte := v.extractLsb' 8 8

/-- R39, R55: the frame on a bus, `f[i] = buf_in[8i+7 : 8i]`. -/
def frameOfBus (w : Bus) : Frame := Vector.ofFn fun i : Fin 16 => w.extractLsb' (8 * i.val) 8

/-- The number whose base-256 digits are the bytes, the first byte least significant. -/
def natOfBytes : List Byte → Nat
  | [] => 0
  | b :: bs => b.toNat + 256 * natOfBytes bs

/-- R39: the bus that carries a frame, byte 0 in bits [7:0] and byte 15 in bits [127:120]. -/
def busOfFrame (f : Frame) : Bus := BitVec.ofNat 128 (natOfBytes f.toList)

end Sys2Proof
end

