-- ==== Sys2Proof/Machine/Frames.lean ====
section
/-! DEFINITION. Building and viewing frames: the serializer's `encode` (spec/40_codec.md R82), the response frame layout
(spec/30_encoding.md R58, R60) and the consumer's field views of a response (R66, R67; the block itself reads no such
field, R40). -/

namespace Sys2Proof

/-- R59: the command frame layout with checksum byte `k`. -/
def commandLayout (c : Byte) (prm : Param) (k : Byte) : Frame :=
  #v[marker, c, loByte prm, hiByte prm, 0, 0, 0, 0, 0, 0, 0, 0, 0, 0, k, terminator]

/-- R82 `encode(c, prm)`: the checksum is taken over the bytes 1..13 just written. -/
def encodeFrame (c : Byte) (prm : Param) : Frame :=
  commandLayout c prm (checksum (commandLayout c prm 0))

/-- R58, R60: the response frame with code `c`, bytes 2..13 `d` and checksum byte `k`. -/
def responseFrame (c : Byte) (d : Payload) (k : Byte) : Frame :=
  #v[marker, c, d[0], d[1], d[2], d[3], d[4], d[5], d[6], d[7], d[8], d[9], d[10], d[11], k, terminator]

/-- R60: bytes 2 to 13 of a frame. -/
def payloadOf (f : Frame) : Payload :=
  #v[f[2], f[3], f[4], f[5], f[6], f[7], f[8], f[9], f[10], f[11], f[12], f[13]]

/-- R66: `min_freq` of an 'r' response. -/
def minFreq (f : Frame) : Param := le16 f[2] f[3]

/-- R66: `max_freq` of an 'r' response. -/
def maxFreq (f : Frame) : Param := le16 f[4] f[5]

/-- R66: `max_power` of an 'r' response. -/
def maxPower (f : Frame) : Param := le16 f[6] f[7]

/-- R67: `freq` of a 'v' response. -/
def freq (f : Frame) : Param := le16 f[2] f[3]

/-- R67: `configured_power` of a 'v' response. -/
def configuredPower (f : Frame) : Param := le16 f[4] f[5]

/-- R67: `pitmode` of a 'v' response; byte 6 is unassigned. -/
def pitmode (f : Frame) : Byte := f[7]

/-- R67: `actual_power` of a 'v' response. -/
def actualPower (f : Frame) : Param := le16 f[8] f[9]

end Sys2Proof
end

