-- ==== Sys2Proof/Syntax.lean ====
section
/-! DEFINITION. The instructions (one constructor per row of spec/opcode_table.json), what the host presents to the
block, and the assembler's lines (spec/30_encoding.md R70, R71). -/

namespace Sys2Proof

/-- The rows of spec/opcode_table.json. The six OP32 rows are the operations of R53. The eight FRAME16 rows are the wire
frames of R59 to R62: a command frame is what the host asks the serializer to build, a response frame is what the
link delivers to the receiver (log 6, log 7). -/
inductive Instr where
  /-- R102 NOP. -/
  | nop
  /-- R89 RX_BYTE, `b = op[7:0]`. -/
  | rxByte (b : Byte)
  /-- R90 RX_CLEAR. -/
  | rxClear
  /-- R87 TX_ENCODE, `code = op[23:16]` and `param = op[15:0]`. -/
  | txEncode (code : Byte) (param : Param)
  /-- R85 CHECKSUM, `f` the frame on buf_in. -/
  | checksum (f : Frame)
  /-- R86 VALIDATE, `f` the frame on buf_in. -/
  | validate (f : Frame)
  /-- R59, R61 CMD_r: capability query. -/
  | cmdR (param : Param)
  /-- R59, R61 CMD_v: status query. -/
  | cmdV (param : Param)
  /-- R59, R61 CMD_F: set frequency. -/
  | cmdF (param : Param)
  /-- R59, R61 CMD_P: set power. -/
  | cmdP (param : Param)
  /-- R59, R61 CMD_I: pitmode on or off. -/
  | cmdI (param : Param)
  /-- R60, R62 RSP_r: capability report; bytes 2..13 and the checksum byte are outside the row's mask. -/
  | rspR (payload : Payload) (chk : Byte)
  /-- R60, R62 RSP_v: status report. -/
  | rspV (payload : Payload) (chk : Byte)
  /-- R60, R62 RSP_s: no interpreted payload. -/
  | rspS (payload : Payload) (chk : Byte)
  deriving DecidableEq, Repr

/-- What the host presents in one step. -/
inductive Transaction where
  /-- R51: an operation word with the operand bus. -/
  | op (word : OpWord) (bufIn : Bus)
  /-- The host asks for the wire frame `f` to be sent (host to VTX). -/
  | send (f : Frame)
  /-- The link delivers the sixteen bytes of `f` (R71 `rxf`), a device's response or an echo: sixteen RX_BYTE operations,
  each taken by a step of its own (R14, log 6). -/
  | receive (f : Frame)
  deriving DecidableEq, Repr

/-- What the host can do between two steps that changes the block: present a transaction or apply reset (R120). -/
inductive HostAction where
  | transact (t : Transaction)
  | reset
  deriving DecidableEq, Repr

/-- R70: a code operand of the assembler is a character literal or a number. -/
inductive CodeArg where
  | char (c : Char)
  | num (n : Nat)
  deriving DecidableEq, Repr

/-- R70: one line of the assembler, its operands not yet checked for range. -/
inductive AsmLine where
  | nop
  | rx (b : Nat)
  | rxclr
  | tx (code : CodeArg) (param : Nat)
  | chk (bytes : List Nat)
  | val (bytes : List Nat)
  | word (w : Nat)
  deriving DecidableEq, Repr

/-- R71: one pseudo-instruction of the assembler. -/
inductive PseudoLine where
  | rxs (bytes : List Nat)
  | rxf (bytes : List Nat)
  | echo
  | txq (code : CodeArg)
  | txfreq (f : Nat)
  | txpow (l : Nat)
  | txpit (on : Bool)
  deriving DecidableEq, Repr

end Sys2Proof
end

