-- ==== Sys2Proof/Decode.lean ====
section
/-! DEFINITION. Decoding, total on every transaction and rejecting by name (spec/30_encoding.md R53, R54, R56), and the
encoder (R52, R59, R60). The decoder tests the match and mask of each row; the encoder lays out the fields of the
format table. -/

namespace Sys2Proof

/-- Why a transaction is no row of the opcode table. -/
inductive DecodeError where
  /-- R56: a reserved or ill-formed operation word. -/
  | illegalWord (w : OpWord)
  /-- Not a frame the serializer can build (R59). -/
  | notACommandFrame (f : Frame)
  /-- Not of a response row's pattern (R60); its bytes are received all the same. -/
  | notAResponseFrame (f : Frame)
  deriving DecidableEq, Repr

/-- What the decoder reads. -/
inductive Decoded where
  | instr (i : Instr)
  | rejected (e : DecodeError)
  deriving DecidableEq, Repr

/-- R54, written in the order of its pseudocode. -/
def decodeOp (w : OpWord) (bufIn : Bus) : Decoded :=
  if w &&& 0xFFFFFFFF#32 = 0x00000000#32 then .instr .nop
  else if w &&& 0xFFFFFF00#32 = 0x01000000#32 then .instr (.rxByte (opByte w))
  else if w &&& 0xFFFFFFFF#32 = 0x02000000#32 then .instr .rxClear
  else if w &&& 0xFF000000#32 = 0x03000000#32 then .instr (.txEncode (opCode w) (opParam w))
  else if w &&& 0xFFFFFFFF#32 = 0x04000000#32 then .instr (.checksum (frameOfBus bufIn))
  else if w &&& 0xFFFFFFFF#32 = 0x05000000#32 then .instr (.validate (frameOfBus bufIn))
  else .rejected (.illegalWord w)

/-- R61: the row of a command frame with code `c`; a code the host does not use is TX_ENCODE all the same (R64). -/
def commandInstr (c : Byte) (prm : Param) : Instr :=
  if c = codeR then .cmdR prm
  else if c = codeV then .cmdV prm
  else if c = codeF then .cmdF prm
  else if c = codeP then .cmdP prm
  else if c = codeI then .cmdI prm
  else .txEncode c prm

/-- R59: a frame to be sent is a command frame when it is the serializer's frame for its own code and parameter. -/
def decodeCommand (f : Frame) : Decoded :=
  let prm := le16 f[2] f[3]
  if f = encodeFrame f[1] prm then .instr (commandInstr f[1] prm) else .rejected (.notACommandFrame f)

/-- R60, R62: the match and mask of rows RSP_r, RSP_v and RSP_s cover bytes 0, 1 and 15. -/
def decodeResponse (f : Frame) : Decoded :=
  if f[0] = marker ∧ f[15] = terminator then
    if f[1] = codeR then .instr (.rspR (payloadOf f) f[14])
    else if f[1] = codeV then .instr (.rspV (payloadOf f) f[14])
    else if f[1] = codeS then .instr (.rspS (payloadOf f) f[14])
    else .rejected (.notAResponseFrame f)
  else .rejected (.notAResponseFrame f)

/-- The decoder. Command and response codes overlap (R63), so the direction of a frame is part of the transaction. -/
def decode : Transaction → Decoded
  | .op w bufIn => decodeOp w bufIn
  | .send f => decodeCommand f
  | .receive f => decodeResponse f

/-- R52: the operation word with RES = 0. -/
def opWord (opc : BitVec 3) (code : Byte) (param : Param) : OpWord := 0#5 ++ opc ++ code ++ param

/-- The transaction that presents an instruction: R53's word and bus, or the row's frame. -/
def encode : Instr → Transaction
  | .nop => .op (opWord 0b000#3 0 0) 0
  | .rxByte b => .op (opWord 0b001#3 0 (0#8 ++ b)) 0
  | .rxClear => .op (opWord 0b010#3 0 0) 0
  | .txEncode c prm => .op (opWord 0b011#3 c prm) 0
  | .checksum f => .op (opWord 0b100#3 0 0) (busOfFrame f)
  | .validate f => .op (opWord 0b101#3 0 0) (busOfFrame f)
  | .cmdR prm => .send (encodeFrame codeR prm)
  | .cmdV prm => .send (encodeFrame codeV prm)
  | .cmdF prm => .send (encodeFrame codeF prm)
  | .cmdP prm => .send (encodeFrame codeP prm)
  | .cmdI prm => .send (encodeFrame codeI prm)
  | .rspR d k => .receive (responseFrame codeR d k)
  | .rspV d k => .receive (responseFrame codeV d k)
  | .rspS d k => .receive (responseFrame codeS d k)

/-- The direction in which a bare 16-byte word of the table is read: to be sent if the serializer can build it, else
received (log 9). -/
def frameTransaction (f : Frame) : Transaction :=
  match decodeCommand f with
  | .instr _ => .send f
  | .rejected _ => .receive f

/-- The transaction whose bits are `w`: 128 bits are a frame packed as on a bus (R39); otherwise bits 31..0 are the
operation word and the bits above it buf_in (log 9). -/
def transactionOfTableWord (nbits w : Nat) : Transaction :=
  if nbits = 128 then frameTransaction (frameOfBus (BitVec.ofNat 128 w))
  else .op (BitVec.ofNat 32 w) (BitVec.ofNat 128 (w / 4294967296))

/-- The instruction the decoder reads from a word of the opcode table. -/
def decodeTableWord (nbits w : Nat) : Option Instr :=
  match decode (transactionOfTableWord nbits w) with
  | .instr i => some i
  | .rejected _ => none

end Sys2Proof
end

