-- ==== Sys2Proof/Machine/State.lean ====
section
/-! DEFINITION. The machine's state (spec/10_state.md): the framer's three elements, which are all the spec gives (R18),
and two fields of the model's own, the output port and the host's pending actions. Also the events (R26), the reasons a
step can stop, and the state after reset (R34). -/

namespace Sys2Proof.Machine

/-- R20: `rx_state`. -/
inductive RxState where
  | waitLen
  | waitCode
  | data
  deriving DecidableEq, Repr

/-- R26, R105: why RX_BYTE rejected a byte or a candidate frame. -/
inductive Reason where
  | badMarker
  | badCode
  | badChecksum
  | badTerminator
  deriving DecidableEq, Repr

/-- R26: the output event of a step. -/
inductive Event where
  | none
  | frame (f : Frame)
  | discard (r : Reason)
  | txFrame (f : Frame)
  | chk (v : Byte)
  | valid (b : Bool)
  | illegal (w : OpWord)
  deriving DecidableEq, Repr

/-- R18: the three state elements of the block. -/
structure Framer where
  /-- R20. -/
  rxState : RxState
  /-- R21: the position counter; 16 is reached only inside a step, so 4 bits hold it between steps. -/
  p : Fin 16
  /-- R22: the candidate buffer. -/
  rxBuf : Frame
  deriving DecidableEq, Repr

structure State where
  /-- R18: the block's own state, all of it. -/
  framer : Framer
  /-- R26, R27: the output port, the event of the step just taken; none when no operation has been taken, which is so
  after reset (R34, R120). The model's own field (log 2). -/
  event : Option Event
  /-- R14, R15: the host's actions not yet taken, the next one first (the model's own field, log 1). -/
  input : List HostAction
  deriving DecidableEq, Repr

/-- R107: the block never traps, halts, hangs or enters an error state, so nothing raises a fault. -/
inductive Fault
  deriving DecidableEq, Repr

/-- Why the model has no meaning for what the host presents. -/
inductive Refusal where
  /-- Raised by an arm of exec whose instruction has no meaning yet; safe. No arm raises it now. -/
  | notModelled (mnemonic : String)
  /-- Raised by the step when the host asks for a frame to be sent that is TX_ENCODE of no code and parameter: no
  operation of the block sends it, so the request is none of the table's instructions (log 8); safe. -/
  | notACommandFrame (f : Frame)
  deriving DecidableEq, Repr

/-- R34: the block after reset. The spec leaves every byte of rx_buf unspecified; zero is the model's value (DESIGN
CHOICE, log 3). -/
def Framer.reset : Framer :=
  { rxState := .waitLen, p := 0, rxBuf := Vector.replicate 16 0 }

/-- R34, R120: reset emits no event, and the host has presented nothing yet. -/
def State.reset : State :=
  { framer := Framer.reset, event := none, input := [] }

end Sys2Proof.Machine
end

