-- ==== Sys2Proof/Machine/Ops.lean ====
section
/-! DEFINITION. The shared operations on the state: the framer's transition (spec/41_receiver.md R89) and its recovery
(spec/60_exceptions.md R111), taking a host action, reset (spec/70_reset_and_hazards.md R120), an idle step, and what the
step does with a transaction that is no row of the table (spec/42_control.md R103). -/

namespace Sys2Proof.Machine

/-- R90, R87, R111: `rx_state <- WaitLen; p <- 0`. It is the receiver clear of RX_CLEAR and TX_ENCODE, and the recovery
after every rejection and completion, which is all this block has of trap entry; rx_buf is not written. -/
def Framer.clear (fr : Framer) : Framer := { fr with rxState := .waitLen, p := 0 }

/-- R22: `rx_buf[i] <- b`, the one write of the buffer. -/
def Framer.store (fr : Framer) (i : Fin 16) (b : Byte) : Framer := { fr with rxBuf := fr.rxBuf.set i b }

/-- R89, R110: the event of a completed candidate; the checksum is tested first (D8). It is the same for every
candidate, the stale one of R125 case 2 included: R125 says that the next two bytes discard that one, but under R89's
pseudocode, R94 and R97 the bytes hi + f[14] and 0x00 complete it as a FRAME. DEDUCED: the model follows them (log 23). -/
def judge (f : Frame) : Event :=
  if f[14] ≠ checksum f then .discard .badChecksum
  else if f[15] ≠ terminator then .discard .badTerminator
  else .frame f

/-- R89: the framer's transition on one received byte, with its event. -/
def Framer.rxByte (fr : Framer) (b : Byte) : Framer × Event :=
  match fr.rxState with
  | .waitLen =>
    if b = marker then ({ fr.store 0 b with rxState := .waitCode, p := 1 }, .none)
    else (fr.clear, .discard .badMarker)
  | .waitCode =>
    if b ∈ respCodes then ({ fr.store 1 b with rxState := .data, p := 2 }, .none)
    else (fr.clear, .discard .badCode)
  | .data =>
    if h : fr.p.val + 1 < 16 then ({ fr.store fr.p b with p := ⟨fr.p.val + 1, h⟩ }, .none)
    else ((fr.store fr.p b).clear, judge (fr.store fr.p b).rxBuf)

/-- R71 `rxs`: the host's RX_BYTE operations of some bytes, in order. -/
def rxActions (bs : List Byte) : List HostAction := bs.map fun b => .transact (encode (.rxByte b))

/-- R26: a step that changes no state element and emits one event. -/
def State.emit (s : State) (e : Event) : State := { s with event := some e }

/-- R14, R89: the step of one RX_BYTE. -/
def State.receiveByte (s : State) (b : Byte) : State :=
  { s with framer := (s.framer.rxByte b).1, event := some (s.framer.rxByte b).2 }

/-- R71 `rxf`, R14: the host issues the RX_BYTE operations of a frame's sixteen bytes, byte 0 first. This step takes the
first of them; the other fifteen stand next on the host's list, each to be taken by a step of its own (log 6). -/
def State.receiveFrame (s : State) (f : Frame) : State :=
  State.receiveByte { s with input := rxActions (f.toList.drop 1) ++ s.input } f[0]

/-- R87: clear the receiver and hand the command frame to the host. -/
def State.sendCommand (s : State) (c : Byte) (prm : Param) : State :=
  { s with framer := s.framer.clear, event := some (.txFrame (encodeFrame c prm)) }

/-- R90: clear the receiver. -/
def State.clearReceiver (s : State) : State :=
  { s with framer := s.framer.clear, event := some .none }

/-- R120: reset between two steps. Every element takes its reset value and no event is emitted; the host's further
actions stand (log 5). -/
def State.hostReset (s : State) : State := { State.reset with input := s.input }

/-- R14, R117: the host has presented nothing, so nothing in the block changes and there is no event (log 4). -/
def State.idle (s : State) : State := { s with event := none }

/-- R14: the host's next action, and the state from which it is taken. -/
def State.takeAction (s : State) : Option (HostAction × State) :=
  match s.input with
  | [] => none
  | a :: rest => some (a, { s with input := rest })

/-- R15: the host presents an action, to be taken next. -/
def State.present (s : State) (a : HostAction) : State := { s with input := a :: s.input }

/-- A transaction that is no row of the table. R103: an ILLEGAL word changes nothing and is reported. R89: sixteen bytes
of any other pattern are received like any bytes. A frame no TX_ENCODE builds cannot be sent (log 8). -/
def undecoded (e : DecodeError) (s : State) : Host.Outcome State Fault Refusal :=
  match e with
  | .illegalWord w => .next (s.emit (.illegal w))
  | .notAResponseFrame f => .next (s.receiveFrame f)
  | .notACommandFrame f => .refused (.notACommandFrame f)

end Sys2Proof.Machine
end

