-- ==== Sys2Proof/Machine/Codec.lean ====
section
/-! DEFINITION. Codec operations (spec/40_codec.md): TX_ENCODE, CHECKSUM, VALIDATE, and the five command frames of
spec/30_encoding.md R61, each of which is TX_ENCODE with its code (R59, R71). -/

namespace Sys2Proof.Machine

/-- R87. Any code is accepted (R64). -/
def execTxEncode (c : Byte) (prm : Param) (s : State) : Host.Outcome State Fault Refusal :=
  .next (s.sendCommand c prm)

/-- R85. -/
def execChecksum (f : Frame) (s : State) : Host.Outcome State Fault Refusal :=
  .next (s.emit (.chk (checksum f)))

/-- R86. -/
def execValidate (f : Frame) (s : State) : Host.Outcome State Fault Refusal :=
  .next (s.emit (.valid (isValidFrame f)))

/-- R61 'r', R71 `txq 'r'`. -/
def execCmdR (prm : Param) (s : State) : Host.Outcome State Fault Refusal := .next (s.sendCommand codeR prm)

/-- R61 'v', R71 `txq 'v'`. -/
def execCmdV (prm : Param) (s : State) : Host.Outcome State Fault Refusal := .next (s.sendCommand codeV prm)

/-- R61 'F', R71 `txfreq`. -/
def execCmdF (prm : Param) (s : State) : Host.Outcome State Fault Refusal := .next (s.sendCommand codeF prm)

/-- R61 'P', R71 `txpow`. -/
def execCmdP (prm : Param) (s : State) : Host.Outcome State Fault Refusal := .next (s.sendCommand codeP prm)

/-- R61 'I', R71 `txpit`. -/
def execCmdI (prm : Param) (s : State) : Host.Outcome State Fault Refusal := .next (s.sendCommand codeI prm)

end Sys2Proof.Machine
end

