-- ==== Sys2Proof/Machine/Control.lean ====
section
/-! DEFINITION. Control operations (spec/42_control.md): NOP. -/

namespace Sys2Proof.Machine

/-- R102. -/
def execNop (s : State) : Host.Outcome State Fault Refusal := .next (s.emit .none)

end Sys2Proof.Machine
end

