-- ==== Sys2Proof/Machine/Receiver.lean ====
section
/-! DEFINITION. Receiver operations (spec/41_receiver.md): RX_BYTE, RX_CLEAR, and the delivery of a response frame, which
is RX_BYTE sixteen times, one operation a step (spec/30_encoding.md R60, R71; spec/00_scope.md R14). -/

namespace Sys2Proof.Machine

/-- R89. -/
def execRxByte (b : Byte) (s : State) : Host.Outcome State Fault Refusal := .next (s.receiveByte b)

/-- R90. -/
def execRxClear (s : State) : Host.Outcome State Fault Refusal := .next s.clearReceiver

/-- R60, R62: a frame with code 'r' arrives. -/
def execRspR (d : Payload) (k : Byte) (s : State) : Host.Outcome State Fault Refusal :=
  .next (s.receiveFrame (responseFrame codeR d k))

/-- R60, R62: a frame with code 'v' arrives. -/
def execRspV (d : Payload) (k : Byte) (s : State) : Host.Outcome State Fault Refusal :=
  .next (s.receiveFrame (responseFrame codeV d k))

/-- R60, R62: a frame with code 's' arrives. -/
def execRspS (d : Payload) (k : Byte) (s : State) : Host.Outcome State Fault Refusal :=
  .next (s.receiveFrame (responseFrame codeS d k))

end Sys2Proof.Machine
end

