-- ==== Sys2Proof/Machine/Dispatch.lean ====
section
/-! DEFINITION. One arm per row of spec/opcode_table.json. -/

namespace Sys2Proof.Machine

def exec (i : Instr) (s : State) : Host.Outcome State Fault Refusal :=
  match i with
  | .nop => Sys2Proof.Machine.execNop s
  | .rxByte b => Sys2Proof.Machine.execRxByte b s
  | .rxClear => Sys2Proof.Machine.execRxClear s
  | .txEncode c prm => Sys2Proof.Machine.execTxEncode c prm s
  | .checksum f => Sys2Proof.Machine.execChecksum f s
  | .validate f => Sys2Proof.Machine.execValidate f s
  | .cmdR prm => Sys2Proof.Machine.execCmdR prm s
  | .cmdV prm => Sys2Proof.Machine.execCmdV prm s
  | .cmdF prm => Sys2Proof.Machine.execCmdF prm s
  | .cmdP prm => Sys2Proof.Machine.execCmdP prm s
  | .cmdI prm => Sys2Proof.Machine.execCmdI prm s
  | .rspR d k => Sys2Proof.Machine.execRspR d k s
  | .rspV d k => Sys2Proof.Machine.execRspV d k s
  | .rspS d k => Sys2Proof.Machine.execRspS d k s

end Sys2Proof.Machine
end

