-- ==== Sys2Proof/Machine/Step.lean ====
section
/-! DEFINITION. One step of the machine: take the host's next action and run it (spec/00_scope.md R14). -/

namespace Sys2Proof.Machine

/-- R54: decode the transaction and run the instruction; what decodes to none is answered by `undecoded`. -/
def runTransaction (t : Transaction) (s : State) : Host.Outcome State Fault Refusal :=
  match decode t with
  | .instr i => exec i s
  | .rejected e => undecoded e s

/-- R14, R120: the host's next action is a transaction or a reset; with none, nothing happens. -/
def step (s : State) : Host.Outcome State Fault Refusal :=
  match s.takeAction with
  | none => .next s.idle
  | some (.transact t, s') => runTransaction t s'
  | some (.reset, s') => .next s'.hostReset

/-- The host presents the table word as its next transaction (log 1, log 9). -/
def State.withFetchWord (s : State) (nbits w : Nat) : State :=
  s.present (.transact (transactionOfTableWord nbits w))

end Sys2Proof.Machine
end

