-- ==== Sys2Proof/Config.lean ====
section
/-! DEFINITION. What an implementation or its host fixes and the spec leaves open: the two host-level parameters of
spec/00_scope.md R9. They have no body, so no proof can know their value (log 13). The fixed constants of R8 are in
Machine/Constants.lean. -/

namespace Sys2Proof

/-- R9, D11 (OPEN): `QUERY_PARAM`, the parameter the host puts in 'r' and 'v' queries. Only the assembler's `txq` uses
it; no operation of the block reads it. -/
opaque Config.queryParam : Param

/-- R9, D12 (OPEN): `PITMODE_PARAM(on)`, the parameter of the 'I' command. Only the assembler's `txpit` uses it. -/
opaque Config.pitmodeParam : Bool → Param

end Sys2Proof
end

