-- ==== Sys2Proof/WellFormed.lean ====
section
/-! DEFINITION. Well-formedness: of an instruction (a response row's checksum byte must equal the sum, as the row's
fields in spec/opcode_table.json say; every other operand is bounded by its type), and of assembler lines (the range
checks of spec/30_encoding.md R70 and the lengths of R71). -/

namespace Sys2Proof

/-- R60 and the table's "byte 14 must equal sum(bytes 1..13) mod 256". A term that fails is still a bit pattern of its
row and still runs: the receiver discards it (R89). -/
def Instr.wellFormed : Instr → Bool
  | .nop => true
  | .rxByte _ => true
  | .rxClear => true
  | .txEncode _ _ => true
  | .checksum _ => true
  | .validate _ => true
  | .cmdR _ => true
  | .cmdV _ => true
  | .cmdF _ => true
  | .cmdP _ => true
  | .cmdI _ => true
  | .rspR d k => k == Sys2Proof.checksum (responseFrame codeR d k)
  | .rspV d k => k == Sys2Proof.checksum (responseFrame codeV d k)
  | .rspS d k => k == Sys2Proof.checksum (responseFrame codeS d k)

/-- R13, R70: the value of a code operand; a character stands for its ASCII code. DESIGN CHOICE (log 20): the spec gives
a character outside ASCII no value, and the model takes its Unicode code point, so that U+0080 to U+00FF are in range
as a code. -/
def CodeArg.value : CodeArg → Nat
  | .char c => c.toNat
  | .num n => n

/-- R70: every byte of a list is at most 0xFF. -/
def bytesInRange (bs : List Nat) : Bool := bs.all (· < 256)

/-- R70: an assembler rejects an operand out of range and a 16-byte list of another length. -/
def AsmLine.wellFormed : AsmLine → Bool
  | .nop => true
  | .rx b => b < 256
  | .rxclr => true
  | .tx c v => c.value < 256 && v < 65536
  | .chk bs => bs.length == frameLen && bytesInRange bs
  | .val bs => bs.length == frameLen && bytesInRange bs
  | .word w => w < 4294967296

/-- R71: `rxs` takes at least one byte and `rxf` exactly sixteen; the operands are those of the expansion's lines. `echo`
has no operand to check; without a TXFRAME event before it, it has no expansion (log 21). -/
def PseudoLine.wellFormed : PseudoLine → Bool
  | .rxs bs => !bs.isEmpty && bytesInRange bs
  | .rxf bs => bs.length == frameLen && bytesInRange bs
  | .echo => true
  | .txq c => c.value < 256
  | .txfreq f => f < 65536
  | .txpow l => l < 65536
  | .txpit _ => true

end Sys2Proof
end

