-- ==== Sys2Proof/Machine/Assembler.lean ====
section
/-! DEFINITION. The assembler of spec/30_encoding.md R70 and its pseudo-instructions (R71), on syntax trees (log 18). -/

namespace Sys2Proof.Machine

/-- R70: sixteen bytes written byte 0 first. -/
def frameOfNats (bs : List Nat) : Frame := Vector.ofFn fun i : Fin 16 => BitVec.ofNat 8 (bs.getD i.val 0)

/-- R70: the word and bus of a line whose operands are in range. -/
def asmTransaction : AsmLine → Transaction
  | .nop => .op 0x00000000#32 0
  | .rx b => .op (0x01000000#32 ||| BitVec.ofNat 32 b) 0
  | .rxclr => .op 0x02000000#32 0
  | .tx c v => .op (0x03000000#32 ||| BitVec.ofNat 32 c.value <<< 16 ||| BitVec.ofNat 32 v) 0
  | .chk bs => .op 0x04000000#32 (busOfFrame (frameOfNats bs))
  | .val bs => .op 0x05000000#32 (busOfFrame (frameOfNats bs))
  | .word w => .op (BitVec.ofNat 32 w) 0

/-- R70: an assembler must reject an operand out of range. -/
def assemble (l : AsmLine) : Option Transaction :=
  if l.wellFormed then some (asmTransaction l) else none

/-- R71: the expansion of a pseudo-instruction. `lastTx` is the frame of the most recent TXFRAME event, which `echo`
feeds back; the host keeps it, not the block. DESIGN CHOICE (log 21): the spec gives `echo` no expansion before any
TXFRAME event, and the model rejects the line. -/
def expand (lastTx : Option Frame) (l : PseudoLine) : Option (List AsmLine) :=
  if l.wellFormed then
    match l with
    | .rxs bs => some (bs.map .rx)
    | .rxf bs => some (bs.map .rx)
    | .echo => lastTx.map fun f => f.toList.map fun b => .rx b.toNat
    | .txq c => some [.tx c Config.queryParam.toNat]
    | .txfreq v => some [.tx (.char 'F') v]
    | .txpow v => some [.tx (.char 'P') v]
    | .txpit on => some [.tx (.char 'I') (Config.pitmodeParam on).toNat]
  else none

end Sys2Proof.Machine
end

