-- ==== Sys2Proof/Machine/Ports.lean ====
section
/-! DEFINITION. The two output ports: the observation port (spec/10_state.md R20, R28) and the event port
(spec/30_encoding.md R69), each with its reader, which refuses the values the block never drives (U7). -/

namespace Sys2Proof.Machine

/-- R20, D19: the observation code of `rx_state`. -/
def RxState.code : RxState → BitVec 2
  | .waitLen => 0#2
  | .waitCode => 1#2
  | .data => 2#2

/-- R20: the state an observation code stands for; value 3 never occurs (U7). -/
def rxStateOfCode (c : BitVec 2) : Option RxState :=
  if c = 0#2 then some .waitLen
  else if c = 1#2 then some .waitCode
  else if c = 2#2 then some .data
  else .none

/-- R28: what the host may read between steps. It is a function of the state, so reading changes nothing. -/
def State.observe (s : State) : BitVec 2 × BitVec 4 :=
  (s.framer.rxState.code, BitVec.ofNat 4 s.framer.p.val)

/-- R69, R105: `evt_data[1:0]` of a DISCARD event. -/
def Reason.code : Reason → BitVec 2
  | .badMarker => 0#2
  | .badCode => 1#2
  | .badChecksum => 2#2
  | .badTerminator => 3#2

/-- R105: the reason a code stands for. -/
def reasonOfCode (c : BitVec 2) : Reason :=
  if c = 0#2 then .badMarker
  else if c = 1#2 then .badCode
  else if c = 2#2 then .badChecksum
  else .badTerminator

/-- R69: `evt_kind[2:0]`. -/
def Event.kind : Event → BitVec 3
  | .none => 0#3
  | .frame _ => 1#3
  | .discard _ => 2#3
  | .txFrame _ => 3#3
  | .chk _ => 4#3
  | .valid _ => 5#3
  | .illegal _ => 6#3

/-- R69: `evt_data[127:0]`; every bit not listed is 0. -/
def Event.data : Event → Bus
  | .none => 0
  | .frame f => busOfFrame f
  | .discard r => r.code.setWidth 128
  | .txFrame f => busOfFrame f
  | .chk v => v.setWidth 128
  | .valid b => (BitVec.ofBool b).setWidth 128
  | .illegal w => w.setWidth 128

/-- R69: the event whose kind and listed data bits a port reading shows; none for evt_kind 111, which is never driven
(U7). -/
def eventOfListedBits (kind : BitVec 3) (data : Bus) : Option Event :=
  if kind = 0#3 then some .none
  else if kind = 1#3 then some (.frame (frameOfBus data))
  else if kind = 2#3 then some (.discard (reasonOfCode (data.extractLsb' 0 2)))
  else if kind = 3#3 then some (.txFrame (frameOfBus data))
  else if kind = 4#3 then some (.chk (data.extractLsb' 0 8))
  else if kind = 5#3 then some (.valid (data.extractLsb' 0 1 == 1#1))
  else if kind = 6#3 then some (.illegal (data.extractLsb' 0 32))
  else .none

/-- R69: the event a port reading stands for. A reading that no event drives stands for none: evt_kind 111 (U7), and
DESIGN CHOICE (log 22), since U7 names only that kind, a reading with an unlisted evt_data bit that is not 0. -/
def eventOfPort (kind : BitVec 3) (data : Bus) : Option Event :=
  (eventOfListedBits kind data).filter fun e => e.data == data

/-- R69: the reading the event port gives for a state: the event of the step just taken, if it was an operation's. -/
def State.eventPort (s : State) : Option (BitVec 3 × Bus) :=
  s.event.map fun e => (e.kind, e.data)

end Sys2Proof.Machine
end

