-- ==== Sys2Proof/Safety.lean ====
section
/-! DEFINITION. The terms statements use: the receiver's invariant (spec/10_state.md R24), framers that differ only in
bytes outside the candidate (R23), what a run shows (spec/00_scope.md R16), and the one kind of request a step refuses. -/

namespace Sys2Proof.Machine

/-- R24: what the framer's elements satisfy between steps. -/
abbrev Framer.Inv (fr : Framer) : Prop :=
  (fr.rxState = .waitLen → fr.p = 0) ∧
  (fr.rxState = .waitCode → fr.p = 1 ∧ fr.rxBuf[0] = marker) ∧
  (fr.rxState = .data → 2 ≤ fr.p.val ∧ fr.rxBuf[0] = marker ∧ fr.rxBuf[1] ∈ respCodes)

/-- R24 for the machine. -/
abbrev State.Inv (s : State) : Prop := s.framer.Inv

/-- R23: two framers that differ at most in bytes at index p or above, which are no part of the candidate. -/
def Framer.Agree (a b : Framer) : Prop :=
  a.rxState = b.rxState ∧ a.p = b.p ∧ ∀ i : Fin 16, i < a.p → a.rxBuf[i] = b.rxBuf[i]

/-- The host's next action, if it asks for a frame to be sent, asks for one that TX_ENCODE builds (log 8). -/
def State.Presentable (s : State) : Prop :=
  ∀ f rest, s.input = .transact (.send f) :: rest → ∃ c prm, f = encodeFrame c prm

/-- R93: received bytes one after another, with the event of each. -/
def Framer.rxBytes (fr : Framer) : List Byte → Framer × List Event
  | [] => (fr, [])
  | b :: bs => (((fr.rxByte b).1.rxBytes bs).1, (fr.rxByte b).2 :: ((fr.rxByte b).1.rxBytes bs).2)

/-- R16: what at most k steps of a run show: each step's event and the observation after it. A step that stops ends
the list. -/
def State.shows : Nat → State → List (Option Event × (BitVec 2 × BitVec 4))
  | 0, _ => []
  | k + 1, s =>
    match step s with
    | .next t => (t.event, t.observe) :: State.shows k t
    | .fault _ => []
    | .refused _ => []

/-- R16: the state after k steps and all their events in order, if none of the steps stops. -/
def State.after : Nat → State → Option (State × List Event)
  | 0, s => some (s, [])
  | k + 1, s =>
    match step s with
    | .next t => (State.after k t).map fun r => (r.1, t.event.toList ++ r.2)
    | .fault _ => none
    | .refused _ => none

end Sys2Proof.Machine
end

