-- ==== Sys2Proof/Certificates/Slice0/Obligations.lean ====
section
/-! DEFINITION. The statements for the provers, each with the rule of spec/ it formalises or rests on. Rules that carry a
decision tag of the spec (D<n>) are the spec's own choices; a clause that rests on a choice of the model names its log
entry. -/

open Sys2Proof Sys2Proof.Machine Host

/-! ## The step and decoding -/

/-- 00_scope R14: a transaction that decodes to an instruction is run as exec of it, with the transaction taken off the
host's list (log 1). -/
def Obligations.StepRunsDecodedInstruction : Prop :=
  ∀ (s : State) (t : Transaction) (rest : List HostAction) (i : Instr),
    s.input = .transact t :: rest → decode t = .instr i → step s = exec i { s with input := rest }

/-- Log 1, log 9: a table word placed as the next transaction is run by the very next step. -/
def Obligations.PlacedTableWordRunsNext : Prop :=
  ∀ (s : State) (nbits w : Nat) (i : Instr),
    decodeTableWord nbits w = some i → step (s.withFetchWord nbits w) = exec i s

/-- 30_encoding R53, R70 and 95_test_vectors 2.7: words written out from the spec. -/
def Obligations.SpecWordsDecode : Prop :=
  decode (.op 0x00000000#32 0) = .instr .nop ∧
  decode (.op 0x010000FF#32 0) = .instr (.rxByte 0xFF#8) ∧
  decode (.op 0x02000000#32 0) = .instr .rxClear ∧
  decode (.op 0x034616F8#32 0) = .instr (.txEncode 0x46#8 5880#16) ∧
  decode (.op 0x01000100#32 0) = .rejected (.illegalWord 0x01000100#32) ∧
  decode (.op 0x05010000#32 0) = .rejected (.illegalWord 0x05010000#32)

/-- 30_encoding R52, R53, R55, R59, R60: no bit of an encoding is dropped, for every instruction of the table. -/
def Obligations.DecodeOfEncodeIsIdentity : Prop :=
  ∀ i : Instr, decode (encode i) = .instr i

/-- 30_encoding R51 to R55, R59, R60, R63: what decodes to an instruction is the encoding of it: the word whole (with the
bus only where it is read, R51), a received frame whole, and a frame to be sent whole where its code is one the host
uses (R61). -/
def Obligations.EncodeOfDecodeIsIdentity : Prop :=
  (∀ (w : OpWord) (bus : Bus) (i : Instr), decode (.op w bus) = .instr i →
    encode i = .op w (if w = 0x04000000#32 ∨ w = 0x05000000#32 then bus else 0)) ∧
  (∀ (f : Frame) (i : Instr), decode (.receive f) = .instr i → encode i = .receive f) ∧
  (∀ (f : Frame) (i : Instr), f[1] ∈ cmdCodes → decode (.send f) = .instr i → encode i = .send f)

/-- 30_encoding R54: every word matches at most one row; a word that matches a row decodes to it; one that matches none
is ILLEGAL. -/
def Obligations.DecodingFollowsMatchAndMask : Prop :=
  ∀ (w : OpWord) (bus : Bus),
    ([(0x00000000#32, 0xFFFFFFFF#32), (0x01000000#32, 0xFFFFFF00#32), (0x02000000#32, 0xFFFFFFFF#32),
      (0x03000000#32, 0xFF000000#32), (0x04000000#32, 0xFFFFFFFF#32), (0x05000000#32, 0xFFFFFFFF#32)].Pairwise
        fun a b => ¬ (w &&& a.2 = a.1 ∧ w &&& b.2 = b.1)) ∧
    (w &&& 0xFFFFFFFF#32 = 0x00000000#32 → decode (.op w bus) = .instr .nop) ∧
    (w &&& 0xFFFFFF00#32 = 0x01000000#32 → decode (.op w bus) = .instr (.rxByte (w.extractLsb' 0 8))) ∧
    (w &&& 0xFFFFFFFF#32 = 0x02000000#32 → decode (.op w bus) = .instr .rxClear) ∧
    (w &&& 0xFF000000#32 = 0x03000000#32 →
      decode (.op w bus) = .instr (.txEncode (w.extractLsb' 16 8) (w.extractLsb' 0 16))) ∧
    (w &&& 0xFFFFFFFF#32 = 0x04000000#32 → decode (.op w bus) = .instr (.checksum (frameOfBus bus))) ∧
    (w &&& 0xFFFFFFFF#32 = 0x05000000#32 → decode (.op w bus) = .instr (.validate (frameOfBus bus))) ∧
    (w &&& 0xFFFFFFFF#32 ≠ 0x00000000#32 ∧ w &&& 0xFFFFFF00#32 ≠ 0x01000000#32 ∧
      w &&& 0xFFFFFFFF#32 ≠ 0x02000000#32 ∧ w &&& 0xFF000000#32 ≠ 0x03000000#32 ∧
      w &&& 0xFFFFFFFF#32 ≠ 0x04000000#32 ∧ w &&& 0xFFFFFFFF#32 ≠ 0x05000000#32 →
      decode (.op w bus) = .rejected (.illegalWord w))

/-- 30_encoding R56, 42_control R103, 60_exceptions R106: exactly the words with a reserved OPC, a RES bit set or a
must-be-zero field not zero are ILLEGAL; such a step emits ILLEGAL(w) and changes no element of the state. -/
def Obligations.IllegalWordsAreReportedAndChangeNothing : Prop :=
  ∀ (w : OpWord) (bus : Bus),
    ((w.extractLsb' 27 5 ≠ 0 ∨ w.extractLsb' 24 3 = 6#3 ∨ w.extractLsb' 24 3 = 7#3 ∨
      (w.extractLsb' 24 3 = 1#3 ∧ (w.extractLsb' 16 8 ≠ 0 ∨ w.extractLsb' 8 8 ≠ 0)) ∨
      ((w.extractLsb' 24 3 = 0#3 ∨ w.extractLsb' 24 3 = 2#3 ∨ w.extractLsb' 24 3 = 4#3 ∨ w.extractLsb' 24 3 = 5#3) ∧
        (w.extractLsb' 16 8 ≠ 0 ∨ w.extractLsb' 0 16 ≠ 0))) ↔
      decode (.op w bus) = .rejected (.illegalWord w)) ∧
    ∀ (s : State) (rest : List HostAction), s.input = .transact (.op w bus) :: rest →
      decode (.op w bus) = .rejected (.illegalWord w) →
      step s = .next { framer := s.framer, event := some (.illegal w), input := rest }

/-! ## The operations -/

/-- 42_control R102. -/
def Obligations.NopEmitsNoneAndChangesNothing : Prop :=
  (∀ bus : Bus, decode (.op 0x00000000#32 bus) = .instr .nop) ∧
  ∀ s : State, exec .nop s = .next { framer := s.framer, event := some .none, input := s.input }

/-- 41_receiver R89, its pseudocode case by case, in every state. The reasons and their order are the spec's decision
D8; the hex codes are ASCII (K1). -/
def Obligations.RxByteFollowsTheReceiverPseudocode : Prop :=
  (∀ (b : Byte) (bus : Bus), decode (.op (0x01000000#32 ||| b.setWidth 32) bus) = .instr (.rxByte b)) ∧
  ∀ (b : Byte) (s : State), ∃ t : State, exec (.rxByte b) s = .next t ∧ t.input = s.input ∧
    (s.framer.rxState = .waitLen → b = 0x0F#8 →
      t.framer = { rxState := .waitCode, p := 1, rxBuf := s.framer.rxBuf.set 0 b } ∧ t.event = some .none) ∧
    (s.framer.rxState = .waitLen → b ≠ 0x0F#8 →
      t.framer = { rxState := .waitLen, p := 0, rxBuf := s.framer.rxBuf } ∧ t.event = some (.discard .badMarker)) ∧
    (s.framer.rxState = .waitCode → (b = 0x72#8 ∨ b = 0x76#8 ∨ b = 0x73#8) →
      t.framer = { rxState := .data, p := 2, rxBuf := s.framer.rxBuf.set 1 b } ∧ t.event = some .none) ∧
    (s.framer.rxState = .waitCode → ¬ (b = 0x72#8 ∨ b = 0x76#8 ∨ b = 0x73#8) →
      t.framer = { rxState := .waitLen, p := 0, rxBuf := s.framer.rxBuf } ∧ t.event = some (.discard .badCode)) ∧
    (s.framer.rxState = .data → s.framer.p.val < 15 →
      t.framer.rxState = .data ∧ t.framer.p.val = s.framer.p.val + 1 ∧
      t.framer.rxBuf = s.framer.rxBuf.set s.framer.p b ∧ t.event = some .none) ∧
    (s.framer.rxState = .data → s.framer.p.val = 15 →
      t.framer = { rxState := .waitLen, p := 0, rxBuf := s.framer.rxBuf.set 15 b } ∧
      t.event = some
        (if t.framer.rxBuf[14] ≠ checksum t.framer.rxBuf then .discard .badChecksum
         else if t.framer.rxBuf[15] ≠ 0x00#8 then .discard .badTerminator
         else .frame t.framer.rxBuf))

/-- 10_state R22, R24: RX_BYTE writes no byte of rx_buf but the one at index p, which it leaves or sets to its operand. -/
def Obligations.RxByteWritesOnlyTheByteAtTheCounter : Prop :=
  ∀ (b : Byte) (s t : State), s.Inv → exec (.rxByte b) s = .next t →
    (∀ i : Fin 16, i ≠ s.framer.p → t.framer.rxBuf[i] = s.framer.rxBuf[i]) ∧
    (t.framer.rxBuf[s.framer.p] = b ∨ t.framer.rxBuf[s.framer.p] = s.framer.rxBuf[s.framer.p])

/-- 41_receiver R90. -/
def Obligations.RxClearDropsThePartialFrame : Prop :=
  (∀ bus : Bus, decode (.op 0x02000000#32 bus) = .instr .rxClear) ∧
  ∀ s : State, exec .rxClear s =
    .next { framer := { rxState := .waitLen, p := 0, rxBuf := s.framer.rxBuf }, event := some .none, input := s.input }

/-- 40_codec R87 (the clear inside TX_ENCODE is the spec's decision D6). -/
def Obligations.TxEncodeEmitsTheFrameAndClearsTheReceiver : Prop :=
  (∀ (c : Byte) (prm : Param) (bus : Bus),
    decode (.op (0x03000000#32 ||| c.setWidth 32 <<< 16 ||| prm.setWidth 32) bus) = .instr (.txEncode c prm)) ∧
  ∀ (c : Byte) (prm : Param) (s : State), exec (.txEncode c prm) s =
    .next { framer := { rxState := .waitLen, p := 0, rxBuf := s.framer.rxBuf }
            event := some (.txFrame (encodeFrame c prm)), input := s.input }

/-- 40_codec R85. -/
def Obligations.ChecksumOperationEmitsTheChecksum : Prop :=
  (∀ bus : Bus, decode (.op 0x04000000#32 bus) = .instr (.checksum (frameOfBus bus))) ∧
  ∀ (f : Frame) (s : State), exec (.checksum f) s =
    .next { framer := s.framer, event := some (.chk (checksum f)), input := s.input }

/-- 40_codec R86. -/
def Obligations.ValidateOperationEmitsTheVerdict : Prop :=
  (∀ bus : Bus, decode (.op 0x05000000#32 bus) = .instr (.validate (frameOfBus bus))) ∧
  ∀ (f : Frame) (s : State), exec (.validate f) s =
    .next { framer := s.framer, event := some (.valid (isValidFrame f)), input := s.input }

/-- 30_encoding R59, R61, R64 and 40_codec R87: each command frame of the table runs as TX_ENCODE with its code (log 7):
the emitted frame is the one presented, with the bytes of R59's pattern, and the receiver is cleared. -/
def Obligations.CommandFramesAreSerialized : Prop :=
  ∀ (prm : Param) (s : State) (i : Instr) (c : Byte),
    ((i = .cmdR prm ∧ c = 0x72#8) ∨ (i = .cmdV prm ∧ c = 0x76#8) ∨ (i = .cmdF prm ∧ c = 0x46#8) ∨
      (i = .cmdP prm ∧ c = 0x50#8) ∨ (i = .cmdI prm ∧ c = 0x49#8)) →
    ∃ f : Frame, encode i = .send f ∧
      f = #v[0x0F#8, c, prm.extractLsb' 0 8, prm.extractLsb' 8 8, 0, 0, 0, 0, 0, 0, 0, 0, 0, 0,
             c + prm.extractLsb' 0 8 + prm.extractLsb' 8 8, 0x00#8] ∧
      exec i s = .next { framer := { rxState := .waitLen, p := 0, rxBuf := s.framer.rxBuf }
                         event := some (.txFrame f), input := s.input }

/-- 30_encoding R60, R62, R71 and 00_scope R14: a response frame of the table is sixteen RX_BYTE operations (log 6). In
every state its step takes the first of them, on the marker, and leaves the other fifteen next on the host's list. -/
def Obligations.ResponseFramesStartWithTheirMarker : Prop :=
  ∀ (d : Payload) (k : Byte) (s : State) (i : Instr) (c : Byte),
    ((i = .rspR d k ∧ c = 0x72#8) ∨ (i = .rspV d k ∧ c = 0x76#8) ∨ (i = .rspS d k ∧ c = 0x73#8)) →
    exec i s = .next
      { framer := (s.framer.rxByte 0x0F#8).1, event := some (s.framer.rxByte 0x0F#8).2
        input := ((c :: d.toList ++ [k, 0x00#8]).map fun b => .transact (encode (.rxByte b))) ++ s.input }

/-- 30_encoding R60, R62, R65 and 41_receiver R89, R94: a response frame of the table that arrives while the receiver is
in WaitLen gives NONE at its own step and at fourteen more, and then FRAME, or DISCARD(BAD_CHECKSUM) if its checksum
byte is wrong (log 6, log 10); its payload is not checked. -/
def Obligations.ResponseFramesAreReceivedFromWaitLen : Prop :=
  ∀ (d : Payload) (k : Byte) (s : State) (i : Instr) (c : Byte),
    ((i = .rspR d k ∧ c = 0x72#8) ∨ (i = .rspV d k ∧ c = 0x76#8) ∨ (i = .rspS d k ∧ c = 0x73#8)) →
    s.framer.rxState = .waitLen →
    ∃ t u : State, exec i s = .next t ∧ t.event = some .none ∧
      State.after 15 t = some (u, List.replicate 14 .none ++
        [if k = checksum (responseFrame c d k) then .frame (responseFrame c d k) else .discard .badChecksum]) ∧
      u.framer = { rxState := .waitLen, p := 0, rxBuf := responseFrame c d k } ∧ u.input = s.input

/-! ## The pure functions -/

/-- 40_codec R80. -/
def Obligations.ChecksumIsTheByteSum : Prop :=
  ∀ f : Frame,
    (checksum f).toNat = (((f.toList.drop 1).take 13).map BitVec.toNat).sum % 256 ∧
    (((f.toList.drop 1).take 13).map BitVec.toNat).sum ≤ 3315

/-- 40_codec R83 law 2 (derived there from R80). -/
def Obligations.ChecksumIgnoresMarkerChecksumAndTerminator : Prop :=
  ∀ (f : Frame) (b : Byte),
    checksum (f.set 0 b) = checksum f ∧ checksum (f.set 14 b) = checksum f ∧ checksum (f.set 15 b) = checksum f

/-- 40_codec R83 law 3 (derived there from R80): adding d to one of bytes 1..13 adds d, so a single-byte error is
detected, and swapping two of these bytes is not. -/
def Obligations.ChecksumShiftsWithOneByte : Prop :=
  (∀ (f : Frame) (i : Fin 16) (d : Byte), 1 ≤ i.val → i.val ≤ 13 → checksum (f.set i (f[i] + d)) = checksum f + d) ∧
  (∀ (f : Frame) (i : Fin 16) (b : Byte), 1 ≤ i.val → i.val ≤ 13 → b ≠ f[i] → checksum (f.set i b) ≠ checksum f) ∧
  (∀ (f : Frame) (i j : Fin 16), 1 ≤ i.val → i.val ≤ 13 → 1 ≤ j.val → j.val ≤ 13 →
    checksum ((f.set i f[j]).set j f[i]) = checksum f)

/-- 40_codec R81: the marker is not checked either. -/
def Obligations.ValidFrameChecksChecksumAndTerminator : Prop :=
  ∀ f : Frame, (isValidFrame f = true ↔ f[14] = checksum f ∧ f[15] = 0x00#8) ∧
    ∀ b : Byte, isValidFrame (f.set 0 b) = isValidFrame f

/-- 40_codec R82. -/
def Obligations.SerializerBuildsTheCommandLayout : Prop :=
  ∀ (c : Byte) (prm : Param),
    (encodeFrame c prm)[0] = 0x0F#8 ∧ (encodeFrame c prm)[1] = c ∧
    (encodeFrame c prm)[2] = prm.extractLsb' 0 8 ∧ (encodeFrame c prm)[3] = prm.extractLsb' 8 8 ∧
    (∀ i : Fin 16, 4 ≤ i.val → i.val ≤ 13 → (encodeFrame c prm)[i] = 0x00#8) ∧
    (encodeFrame c prm)[14] = checksum (encodeFrame c prm) ∧ (encodeFrame c prm)[15] = 0x00#8

/-- 40_codec R83 law 4, R84 laws 1 and 2 (derived there from R80 to R82). -/
def Obligations.SerializedFramesAreValid : Prop :=
  ∀ (c : Byte) (prm : Param),
    checksum (encodeFrame c prm) = c + loByte prm + hiByte prm ∧
    isValidFrame (encodeFrame c prm) = true ∧ (accept (encodeFrame c prm) = true ↔ c ∈ respCodes)

/-- 40_codec R84 law 3 (derived there). -/
def Obligations.SerializerIsInjective : Prop :=
  ∀ (c c' : Byte) (prm prm' : Param), encodeFrame c prm = encodeFrame c' prm' → c = c' ∧ prm = prm'

/-- 20_memory R37: the value of a 16-bit field, low byte at the lower offset; R40: the two bytes the serializer writes. -/
def Obligations.FieldsAreLittleEndian : Prop :=
  (∀ lo hi : Byte, (le16 lo hi).toNat = lo.toNat + 256 * hi.toNat) ∧
  ∀ prm : Param, (loByte prm).toNat = prm.toNat % 256 ∧ (hiByte prm).toNat = prm.toNat / 256

/-- 20_memory R39: on the operand bus and on the event port, byte i sits at bits [8i+7 : 8i]. -/
def Obligations.BusCarriesBytesInOffsetOrder : Prop :=
  (∀ (f : Frame) (i : Fin 16),
    (Event.frame f).data.extractLsb' (8 * i.val) 8 = f[i] ∧ (Event.txFrame f).data.extractLsb' (8 * i.val) 8 = f[i]) ∧
  ∀ w : Bus, ∃ f g : Frame,
    decode (.op 0x04000000#32 w) = .instr (.checksum f) ∧ decode (.op 0x05000000#32 w) = .instr (.validate g) ∧
    ∀ i : Fin 16, f[i] = w.extractLsb' (8 * i.val) 8 ∧ g[i] = w.extractLsb' (8 * i.val) 8

/-- 20_memory R39: packing and unpacking are inverse, so a bus carries exactly one frame. -/
def Obligations.BusPackingIsInvertible : Prop :=
  (∀ f : Frame, frameOfBus (busOfFrame f) = f) ∧ ∀ w : Bus, busOfFrame (frameOfBus w) = w

/-! ## Ports -/

/-- 10_state R28 and R20: the observation is the code of rx_state and p, nothing else. -/
def Obligations.ObservationPortShowsStateAndCounter : Prop :=
  ∀ s : State,
    (s.observe).1 = (match s.framer.rxState with | .waitLen => 0#2 | .waitCode => 1#2 | .data => 2#2) ∧
    (s.observe).2.toNat = s.framer.p.val

/-- 30_encoding R69: the kinds and data of the events; kind 111 is never driven. -/
def Obligations.EventPortEncoding : Prop :=
  (Event.none.kind = 0b000#3 ∧ Event.none.data = 0) ∧
  (∀ f, (Event.frame f).kind = 0b001#3 ∧ (Event.frame f).data = busOfFrame f) ∧
  (∀ r, (Event.discard r).kind = 0b010#3) ∧
  ((Event.discard .badMarker).data = 0b00#128 ∧ (Event.discard .badCode).data = 0b01#128 ∧
    (Event.discard .badChecksum).data = 0b10#128 ∧ (Event.discard .badTerminator).data = 0b11#128) ∧
  (∀ f, (Event.txFrame f).kind = 0b011#3 ∧ (Event.txFrame f).data = busOfFrame f) ∧
  (∀ v, (Event.chk v).kind = 0b100#3 ∧ (Event.chk v).data = v.setWidth 128) ∧
  (∀ b, (Event.valid b).kind = 0b101#3 ∧ (Event.valid b).data = if b = true then 1#128 else 0#128) ∧
  (∀ w, (Event.illegal w).kind = 0b110#3 ∧ (Event.illegal w).data = w.setWidth 128) ∧
  ∀ e : Event, e.kind ≠ 0b111#3

/-- 30_encoding R69, U7: the port carries every event, and a reading stands for an event only if that event drives it
(for unlisted data bits the model's choice, log 22). -/
def Obligations.EventPortReadsBack : Prop :=
  (∀ e : Event, eventOfPort e.kind e.data = some e) ∧
  ∀ (kind : BitVec 3) (data : Bus) (e : Event), eventOfPort kind data = some e → e.kind = kind ∧ e.data = data

/-! ## Reset, the host and stops -/

/-- 10_state R34, 70_reset R120 (the spec's decision D5). That every byte of rx_buf is 0 is the model's choice (log 3);
that the host has presented nothing is the model's own field (log 1). -/
def Obligations.ResetStateIsIdleReceiver : Prop :=
  State.reset.framer.rxState = .waitLen ∧ State.reset.framer.p = 0 ∧ State.reset.event = none ∧
  State.reset.observe = (0#2, 0#4) ∧ State.reset.input = [] ∧ ∀ i : Fin 16, State.reset.framer.rxBuf[i] = 0x00#8

/-- 70_reset R120: reset between two steps puts rx_state and p at their reset values and emits no event. That it is an
action on the host's list is the model's form (log 5). -/
def Obligations.HostResetClearsAndEmitsNothing : Prop :=
  ∀ (s : State) (rest : List HostAction), s.input = .reset :: rest →
    ∃ t : State, step s = .next t ∧ t.framer.rxState = .waitLen ∧ t.framer.p = 0 ∧ t.event = none ∧ t.input = rest

/-- 60_exceptions R117, R119: when the host presents nothing, the block keeps its state and emits nothing (log 4). -/
def Obligations.NothingHappensWithoutTheHost : Prop :=
  ∀ s : State, s.input = [] → step s = .next { framer := s.framer, event := none, input := [] }

/-- 60_exceptions R107: every operation word, ill-formed or not, is taken in every state, gives a next state, and leaves
the host's next action to be taken as normal. -/
def Obligations.OperationsNeverTrap : Prop :=
  ∀ (s : State) (w : OpWord) (bus : Bus) (rest : List HostAction),
    s.input = .transact (.op w bus) :: rest → ∃ t : State, step s = .next t ∧ t.input = rest

/-- 60_exceptions R107 and log 8: no step faults, and a step is refused exactly when the host asks for a frame to be sent
that the serializer builds for no code and parameter. -/
def Obligations.OnlyUnbuildableFramesAreRefused : Prop :=
  ∀ s : State,
    (∀ x, step s ≠ .fault x) ∧
    (s.Presentable ↔ ∃ t, step s = .next t) ∧
    ∀ r, step s = .refused r ↔ ∃ f rest, s.input = .transact (.send f) :: rest ∧
      r = .notACommandFrame f ∧ ∀ c prm, f ≠ encodeFrame c prm

/-- 10_state R26, 00_scope R12, R14: the step of every transaction, a frame's among them, emits exactly one event. -/
def Obligations.EachOperationEmitsOneEvent : Prop :=
  ∀ (s t : State) (x : Transaction) (rest : List HostAction),
    s.input = .transact x :: rest → step s = .next t → ∃! e : Event, t.event = some e

/-- 00_scope R14: the step of every transaction that is not refused is the step of exactly one operation word of R53 (or
an ill-formed one); a delivered frame leaves its further bytes to steps of their own (log 6, log 7). -/
def Obligations.EachStepTakesOneOperation : Prop :=
  ∀ (s t : State) (x : Transaction) (rest : List HostAction),
    s.input = .transact x :: rest → step s = .next t →
    ∃ (w : OpWord) (bus : Bus) (more : List HostAction),
      step s = step { s with input := .transact (.op w bus) :: (more ++ rest) } ∧ t.input = more ++ rest

/-- 00_scope R16, R14: over a run of operations, with no reset and none of the steps idle, the events are one a step. -/
def Obligations.RunsShowOneEventAStep : Prop :=
  ∀ (k : Nat) (s u : State) (es : List Event),
    (∀ a ∈ s.input, a ≠ .reset) → k ≤ s.input.length → State.after k s = some (u, es) → es.length = k

/-! ## Whole-machine rules -/

/-- 10_state R24 (derived there). -/
def Obligations.ReceiverInvariantHoldsAtReset : Prop := State.reset.Inv

/-- 10_state R24 (derived there): every step keeps the receiver's invariant, whatever the host presents. -/
def Obligations.EveryStepKeepsTheReceiverInvariant : Prop :=
  ∀ s t : State, s.Inv → step s = .next t → t.Inv

/-- 10_state R20, R21, R22: the receiver's elements are written only by received bytes, RX_CLEAR and TX_ENCODE (as an
operation or as a frame of the table, log 6, log 7), and rx_buf only by received bytes. -/
def Obligations.OnlyReceiverOperationsWriteTheReceiver : Prop :=
  ∀ (i : Instr) (s t : State), exec i s = .next t →
    (t.framer ≠ s.framer →
      i = .rxClear ∨ (∃ b, i = .rxByte b) ∨ (∃ c prm, i = .txEncode c prm) ∨
      (∃ f, encode i = .send f) ∨ ∃ f, encode i = .receive f) ∧
    (t.framer.rxBuf ≠ s.framer.rxBuf → (∃ b, i = .rxByte b) ∨ ∃ f, encode i = .receive f)

/-- 10_state R26, 60_exceptions R105: FRAME and DISCARD come only from received bytes, TXFRAME only from TX_ENCODE (as an
operation or as a frame of the table), and it carries the serializer's frame. -/
def Obligations.EventsComeFromTheirOperations : Prop :=
  ∀ (i : Instr) (s t : State), exec i s = .next t →
    (∀ f, t.event = some (.frame f) → (∃ b, i = .rxByte b) ∨ ∃ g, encode i = .receive g) ∧
    (∀ r, t.event = some (.discard r) → (∃ b, i = .rxByte b) ∨ ∃ g, encode i = .receive g) ∧
    (∀ f, t.event = some (.txFrame f) →
      (∃ c prm, i = .txEncode c prm ∧ f = encodeFrame c prm) ∨ encode i = .send f)

/-- 60_exceptions R105, R110: when each reason is reported, its code, and the receiver back in WaitLen with p = 0 (the
reason names and their order are the spec's decision D8). -/
def Obligations.DiscardReasonsAreDetectedAsListed : Prop :=
  (Reason.badMarker.code = 0b00#2 ∧ Reason.badCode.code = 0b01#2 ∧
    Reason.badChecksum.code = 0b10#2 ∧ Reason.badTerminator.code = 0b11#2) ∧
  ∀ (b : Byte) (s t : State), exec (.rxByte b) s = .next t →
    (t.event = some (.discard .badMarker) ↔ s.framer.rxState = .waitLen ∧ b ≠ 0x0F#8) ∧
    (t.event = some (.discard .badCode) ↔ s.framer.rxState = .waitCode ∧ b ∉ respCodes) ∧
    (t.event = some (.discard .badChecksum) ↔ s.framer.rxState = .data ∧ s.framer.p = 15 ∧
      t.framer.rxBuf[14] ≠ checksum t.framer.rxBuf) ∧
    (t.event = some (.discard .badTerminator) ↔ s.framer.rxState = .data ∧ s.framer.p = 15 ∧
      t.framer.rxBuf[14] = checksum t.framer.rxBuf ∧ t.framer.rxBuf[15] ≠ 0x00#8) ∧
    ((∃ r, t.event = some (.discard r)) → t.framer.rxState = .waitLen ∧ t.framer.p = 0)

/-- 10_state R23 (derived there): bytes at index p or above are read by no rule. Two states that differ only there show
the same events and observations, and go on differing only there. -/
def Obligations.BytesOutsideTheCandidateAreNeverRead : Prop :=
  ∀ s t s' : State, s.Inv → s.framer.Agree t.framer → s.input = t.input → step s = .next s' →
    ∃ t' : State, step t = .next t' ∧ t'.event = s'.event ∧ t'.observe = s'.observe ∧ t'.input = s'.input ∧
      s'.framer.Agree t'.framer

/-- 70_reset R121 (derived there): after a reset and after an RX_CLEAR every sequence of host actions shows the same
events and observations. -/
def Obligations.ResetAndClearBehaveAlike : Prop :=
  ∀ (s : State) (k : Nat), State.shows k s.hostReset = State.shows k s.clearReceiver

/-! ## The byte stream -/

/-- 41_receiver R93: RX_BYTE steps one after another are `Framer.rxBytes`, whatever the host presents afterwards. -/
def Obligations.ByteStepsAreTheByteStream : Prop :=
  ∀ (s : State) (bs : List Byte) (rest : List HostAction),
    s.input = bs.map (fun b => .transact (encode (.rxByte b))) ++ rest →
    ∃ t : State, State.after bs.length s = some (t, (s.framer.rxBytes bs).2) ∧
      t.framer = (s.framer.rxBytes bs).1 ∧ t.input = rest

/-- 30_encoding R71 `rxf` and log 6: the delivery of a frame, of any pattern and in any state of the receiver, is sixteen
RX_BYTE steps: its first step is the step of the sixteen operations presented one by one, and all sixteen complete
with the receiver state and the events of the byte stream. -/
def Obligations.ReceivedFrameIsSixteenByteSteps : Prop :=
  ∀ (s : State) (f : Frame) (rest : List HostAction), s.input = .transact (.receive f) :: rest →
    step s = step { s with input := f.toList.map (fun b => .transact (encode (.rxByte b))) ++ rest } ∧
    ∃ u : State, State.after 16 s = some (u, (s.framer.rxBytes f.toList).2) ∧
      u.framer = (s.framer.rxBytes f.toList).1 ∧ u.input = rest

/-- 41_receiver R94, second half (derived there): from WaitLen an acceptable frame is emitted at its 16th byte. -/
def Obligations.AcceptableFramesAreEmitted : Prop :=
  ∀ (fr : Framer) (f : Frame), fr.rxState = .waitLen → accept f = true →
    fr.rxBytes f.toList = ({ rxState := .waitLen, p := 0, rxBuf := f }, List.replicate 15 .none ++ [.frame f])

/-- 41_receiver R94, first half (derived there), for bytes fed from WaitLen: an emitted frame is the last sixteen bytes,
the receiver was in WaitLen before them, and all four acceptance conditions hold. -/
def Obligations.EmittedFramesAreTheLastSixteenBytes : Prop :=
  ∀ (fr : Framer) (bs : List Byte) (b : Byte) (f : Frame), fr.rxState = .waitLen →
    ((fr.rxBytes bs).1.rxByte b).2 = .frame f →
    accept f = true ∧ ∃ pre, bs ++ [b] = pre ++ f.toList ∧ (fr.rxBytes pre).1.rxState = .waitLen

/-- 41_receiver R95 (derived there): an acceptable frame is emitted at its 16th byte exactly when the receiver is in
WaitLen as its byte 0 arrives. -/
def Obligations.FrameIsReceivedExactlyFromWaitLen : Prop :=
  ∀ (fr : Framer) (f : Frame), fr.Inv → accept f = true →
    ((fr.rxBytes f.toList).2.getLast? = some (.frame f) ↔ fr.rxState = .waitLen)

/-- 41_receiver R95, sufficient condition (derived there): no marker in the last fifteen bytes of a prefix that is long
enough or starts in WaitLen puts the receiver in WaitLen, so the frame after it is received. -/
def Obligations.QuietPrefixResynchronizes : Prop :=
  ∀ (fr : Framer) (n : List Byte) (v : Frame), fr.Inv → accept v = true →
    (15 ≤ n.length ∨ fr.rxState = .waitLen) → (∀ x ∈ n.drop (n.length - 15), x ≠ 0x0F#8) →
    (fr.rxBytes n).1.rxState = .waitLen ∧ (fr.rxBytes (n ++ v.toList)).2.getLast? = some (.frame v)

/-- 41_receiver R96 (derived there): at most fifteen bytes bring the receiver back to WaitLen. -/
def Obligations.ReceiverRecoversWithinFifteenBytes : Prop :=
  ∀ (fr : Framer) (bs : List Byte), fr.Inv → bs.length = 15 →
    ∃ k, k ≤ 15 ∧ (fr.rxBytes (bs.take k)).1.rxState = .waitLen

/-- 41_receiver R98 (derived there): after a FRAME, the next fifteen received bytes emit none. -/
def Obligations.FramesAreSixteenBytesApart : Prop :=
  ∀ (fr : Framer) (b : Byte) (f : Frame) (bs : List Byte), (fr.rxByte b).2 = .frame f → bs.length ≤ 15 →
    ∀ g, Event.frame g ∉ ((fr.rxByte b).1.rxBytes bs).2

/-- 70_reset R125 (derived there): the echo of a command, fed back straight after it, ends in exactly one of three ways. -/
def Obligations.SelfEchoEndsInOneOfThreeWays : Prop :=
  ∀ (s t : State) (c : Byte) (prm : Param), exec (.txEncode c prm) s = .next t →
    (c ∈ respCodes →
      (t.framer.rxBytes (encodeFrame c prm).toList).1.rxState = .waitLen ∧
      (t.framer.rxBytes (encodeFrame c prm).toList).2 = List.replicate 15 .none ++ [.frame (encodeFrame c prm)]) ∧
    (c ∉ respCodes →
      (∀ g, Event.frame g ∉ (t.framer.rxBytes (encodeFrame c prm).toList).2) ∧
      if loByte prm = 0x0F#8 ∧ hiByte prm ∈ respCodes then
        (t.framer.rxBytes (encodeFrame c prm).toList).1.rxState = .data ∧
        (t.framer.rxBytes (encodeFrame c prm).toList).1.p = 14
      else (t.framer.rxBytes (encodeFrame c prm).toList).1.rxState = .waitLen)

/-- 70_reset R125 case 2 under 41_receiver R89 (log 23): the two bytes after such an echo complete the stale candidate and
leave the receiver in WaitLen. They discard it, as R125 says, but for one pair of bytes, which R89 accepts. -/
def Obligations.StaleEchoCandidateIsJudgedLikeAnyOther : Prop :=
  ∀ (s t : State) (c : Byte) (prm : Param) (x y : Byte), exec (.txEncode c prm) s = .next t →
    c ∉ respCodes → loByte prm = 0x0F#8 → hiByte prm ∈ respCodes →
    (t.framer.rxBytes ((encodeFrame c prm).toList ++ [x, y])).1.rxState = .waitLen ∧
    (t.framer.rxBytes ((encodeFrame c prm).toList ++ [x, y])).1.p = 0 ∧
    ((∃ g, (t.framer.rxBytes ((encodeFrame c prm).toList ++ [x, y])).2.getLast? = some (.frame g)) ↔
      x = hiByte prm + checksum (encodeFrame c prm) ∧ y = 0x00#8)

/-- 70_reset R125 case 2, its last two sentences: a response that starts within the two bytes after such an echo (at once,
or after one byte of any value) makes them discard the stale candidate, and is lost: no FRAME is emitted. -/
def Obligations.ResponsesOverAStaleEchoAreLost : Prop :=
  ∀ (s t : State) (c : Byte) (prm : Param) (pre : List Byte) (v : Frame), exec (.txEncode c prm) s = .next t →
    c ∉ respCodes → loByte prm = 0x0F#8 → hiByte prm ∈ respCodes → pre.length ≤ 1 → accept v = true →
    (∃ r, (t.framer.rxBytes ((encodeFrame c prm).toList ++ pre ++ v.toList)).2[17]? = some (.discard r)) ∧
    ∀ g, Event.frame g ∉ (t.framer.rxBytes ((encodeFrame c prm).toList ++ pre ++ v.toList)).2

/-! ## The assembler -/

/-- 30_encoding R70: the words, the range checks, and the example `tx 'F', 5880`. That a character outside ASCII stands
for its code point (log 20) and that a line without sixteen bytes has buf_in = 0 (log 18) are the model's choices. -/
def Obligations.AssemblerEmitsTheListedWords : Prop :=
  assemble .nop = some (.op 0x00000000#32 0) ∧
  (∀ b, assemble (.rx b) = if b ≤ 0xFF then some (.op (BitVec.ofNat 32 (0x01000000 + b)) 0) else none) ∧
  assemble .rxclr = some (.op 0x02000000#32 0) ∧
  (∀ (c : CodeArg) (v : Nat), assemble (.tx c v) =
    if c.value ≤ 0xFF ∧ v ≤ 0xFFFF then some (.op (BitVec.ofNat 32 (0x03000000 + c.value * 65536 + v)) 0) else none) ∧
  (∀ bs : List Nat, (bs.length = 16 ∧ ∀ b ∈ bs, b ≤ 0xFF) →
    ∃ f : Frame, f.toList.map BitVec.toNat = bs ∧ assemble (.chk bs) = some (.op 0x04000000#32 (busOfFrame f)) ∧
      assemble (.val bs) = some (.op 0x05000000#32 (busOfFrame f))) ∧
  (∀ bs : List Nat, ¬ (bs.length = 16 ∧ ∀ b ∈ bs, b ≤ 0xFF) → assemble (.chk bs) = none ∧ assemble (.val bs) = none) ∧
  (∀ w, w ≤ 0xFFFFFFFF → assemble (.word w) = some (.op (BitVec.ofNat 32 w) 0)) ∧
  assemble (.tx (.char 'F') 5880) = some (.op 0x034616F8#32 0)

/-- 30_encoding R71: the expansions; `rxs` and `rxf` on bytes in range, `echo` on the host's last TXFRAME. -/
def Obligations.PseudoInstructionsExpandAsListed : Prop :=
  (∀ (last : Option Frame) (bs : List Nat), bs ≠ [] → (∀ b ∈ bs, b ≤ 0xFF) →
    expand last (.rxs bs) = some (bs.map .rx) ∧ (bs.length = 16 → expand last (.rxf bs) = expand last (.rxs bs))) ∧
  (∀ f : Frame, expand (some f) .echo = expand none (.rxf (f.toList.map BitVec.toNat))) ∧
  (∀ (last : Option Frame) (c : CodeArg), c.value ≤ 0xFF → expand last (.txq c) = some [.tx c Config.queryParam.toNat]) ∧
  (∀ (last : Option Frame) (v : Nat), v ≤ 0xFFFF → expand last (.txfreq v) = some [.tx (.char 'F') v] ∧
    expand last (.txpow v) = some [.tx (.char 'P') v]) ∧
  ∀ (last : Option Frame) (on : Bool),
    expand last (.txpit on) = some [.tx (.char 'I') (Config.pitmodeParam on).toNat]
end

