-- ==== Sys2Proof/Laws/Encoding.lean ====
section
/-! SUPPORT. The bits of an operation word by field, the bytes of a built frame by offset, and little-endian pairs. -/

namespace Sys2Proof

/-- R52: PARAM, CODE and OPC by bit number; RES is 0. -/
theorem getLsbD_opWord (opc : BitVec 3) (code : Byte) (param : Param) (j : Nat) :
    (opWord opc code param).getLsbD j =
      if j < 16 then param.getLsbD j else if j < 24 then code.getLsbD (j - 16) else opc.getLsbD (j - 24) := by
  have hParam := BitVec.getLsbD_append (x := 0#5 ++ opc ++ code) (y := param) (i := j)
  have hCode := BitVec.getLsbD_append (x := 0#5 ++ opc) (y := code) (i := j - 16)
  have hOpc := BitVec.getLsbD_append (x := 0#5) (y := opc) (i := j - 16 - 8)
  refine hParam.trans ?_
  rw [hCode, hOpc]
  grind

/-- R52: the word as a number. -/
theorem toNat_opWord (opc : BitVec 3) (code : Byte) (param : Param) :
    (opWord opc code param).toNat = opc.toNat * 16777216 + code.toNat * 65536 + param.toNat := by
  have hParam := BitVec.toNat_append (0#5 ++ opc ++ code) param
  have hCode := BitVec.toNat_append (0#5 ++ opc) code
  have hOpc := BitVec.toNat_append 0#5 opc
  refine hParam.trans ?_
  rw [hCode, hOpc, ← Nat.shiftLeft_add_eq_or_of_lt param.isLt, ← Nat.shiftLeft_add_eq_or_of_lt code.isLt]
  simp [Nat.shiftLeft_eq]
  omega

/-- R53: NOP's, RX_CLEAR's, CHECKSUM's and VALIDATE's mask keeps the whole word. -/
@[simp] theorem and_wordMask (w : OpWord) : w &&& 0xFFFFFFFF#32 = w := BitVec.and_allOnes

/-- R53: RX_BYTE's mask keeps bits 31 to 8. -/
theorem toNat_and_rxByteMask (w : OpWord) : (w &&& 0xFFFFFF00#32).toNat = w.toNat / 256 * 256 := by
  have shifted : w &&& 0xFFFFFF00#32 = w >>> 8 <<< 8 := by
    apply BitVec.eq_of_getLsbD_eq
    intro j hj
    interval_cases j <;> simp
  have := w.isLt
  rw [shifted]
  simp [Nat.shiftRight_eq_div_pow, Nat.shiftLeft_eq]
  omega

/-- R53: TX_ENCODE's mask keeps bits 31 to 24. -/
theorem toNat_and_txEncodeMask (w : OpWord) : (w &&& 0xFF000000#32).toNat = w.toNat / 16777216 * 16777216 := by
  have shifted : w &&& 0xFF000000#32 = w >>> 24 <<< 24 := by
    apply BitVec.eq_of_getLsbD_eq
    intro j hj
    interval_cases j <;> simp
  have := w.isLt
  rw [shifted]
  simp [Nat.shiftRight_eq_div_pow, Nat.shiftLeft_eq]
  omega

/-- R53: RX_BYTE's row, as a range of words. -/
theorem matches_rxByte_iff (w : OpWord) : w &&& 0xFFFFFF00#32 = 0x01000000#32 ↔ w.toNat / 256 = 65536 := by
  rw [← BitVec.toNat_inj, toNat_and_rxByteMask]
  simp
  omega

/-- R53: TX_ENCODE's row, as a range of words. -/
theorem matches_txEncode_iff (w : OpWord) : w &&& 0xFF000000#32 = 0x03000000#32 ↔ w.toNat / 16777216 = 3 := by
  rw [← BitVec.toNat_inj, toNat_and_txEncodeMask]
  simp
  omega

/-- R54: what the decoder reads from a word, by the word's number: the mask and match of each row as a range. -/
theorem decodeOp_by_range (w : OpWord) (bufIn : Bus) :
    decodeOp w bufIn =
      if w.toNat = 0 then .instr .nop
      else if w.toNat / 256 = 65536 then .instr (.rxByte (opByte w))
      else if w.toNat = 33554432 then .instr .rxClear
      else if w.toNat / 16777216 = 3 then .instr (.txEncode (opCode w) (opParam w))
      else if w.toNat = 67108864 then .instr (.checksum (frameOfBus bufIn))
      else if w.toNat = 83886080 then .instr (.validate (frameOfBus bufIn))
      else .rejected (.illegalWord w) := by
  simp only [decodeOp, and_wordMask, matches_rxByte_iff, matches_txEncode_iff]
  simp only [← BitVec.toNat_inj]
  rfl

/-- R55: RX_BYTE's byte as a number. -/
theorem toNat_opByte (w : OpWord) : (opByte w).toNat = w.toNat % 256 := by
  simp [opByte, BitVec.extractLsb'_toNat]

/-- R55: TX_ENCODE's code as a number. -/
theorem toNat_opCode (w : OpWord) : (opCode w).toNat = w.toNat / 65536 % 256 := by
  simp [opCode, BitVec.extractLsb'_toNat, Nat.shiftRight_eq_div_pow]

/-- R55: TX_ENCODE's parameter as a number. -/
theorem toNat_opParam (w : OpWord) : (opParam w).toNat = w.toNat % 65536 := by
  simp [opParam, BitVec.extractLsb'_toNat]

/-- R11, R40: the low byte of a pair. -/
@[simp] theorem loByte_le16 (lo hi : Byte) : loByte (le16 lo hi) = lo := by
  apply BitVec.eq_of_toNat_eq
  simp [loByte, le16, BitVec.extractLsb'_toNat]
  omega

/-- R11, R40: the high byte of a pair. -/
@[simp] theorem hiByte_le16 (lo hi : Byte) : hiByte (le16 lo hi) = hi := by
  apply BitVec.eq_of_toNat_eq
  simp [hiByte, le16, BitVec.extractLsb'_toNat, Nat.shiftRight_eq_div_pow]
  omega

/-- R40: a parameter is the pair of its bytes. -/
@[simp] theorem le16_loByte_hiByte (prm : Param) : le16 (loByte prm) (hiByte prm) = prm := by
  apply BitVec.eq_of_toNat_eq
  have := prm.isLt
  simp [loByte, hiByte, le16, BitVec.extractLsb'_toNat, Nat.shiftRight_eq_div_pow]
  omega

section frames
variable (c k : Byte) (prm : Param) (d : Payload)

@[simp] theorem encodeFrame_marker : (encodeFrame c prm)[0] = marker := rfl
@[simp] theorem encodeFrame_code : (encodeFrame c prm)[1] = c := rfl
@[simp] theorem encodeFrame_lo : (encodeFrame c prm)[2] = loByte prm := rfl
@[simp] theorem encodeFrame_hi : (encodeFrame c prm)[3] = hiByte prm := rfl
@[simp] theorem encodeFrame_terminator : (encodeFrame c prm)[15] = terminator := rfl
@[simp] theorem encodeFrame_chk : (encodeFrame c prm)[14] = checksum (encodeFrame c prm) := rfl
@[simp] theorem responseFrame_marker : (responseFrame c d k)[0] = marker := rfl
@[simp] theorem responseFrame_code : (responseFrame c d k)[1] = c := rfl
@[simp] theorem responseFrame_chk : (responseFrame c d k)[14] = k := rfl
@[simp] theorem responseFrame_terminator : (responseFrame c d k)[15] = terminator := rfl

/-- The payload of a built response is the payload it was built from. -/
@[simp] theorem payloadOf_responseFrame : payloadOf (responseFrame c d k) = d := by
  ext i hi
  interval_cases i <;> rfl

/-- A frame with the marker and the terminator is the response frame of its own code, payload and checksum byte. -/
theorem responseFrame_payloadOf {f : Frame} (h0 : f[0] = marker) (h15 : f[15] = terminator) :
    responseFrame f[1] (payloadOf f) f[14] = f := by
  ext i hi
  interval_cases i <;> simp [responseFrame, payloadOf, h0, h15]

end frames

end Sys2Proof
end

