-- ==== Sys2Proof/Laws/Ops.lean ====
section
/-! SUPPORT. For each shared operation, what it can do, said once: the framer's transition by state, received bytes one
after another, the verdict on a candidate, and the step by the host's next action. -/

namespace Sys2Proof.Machine

/-- R89, WaitLen, the marker. -/
theorem Framer.rxByte_waitLen_marker {fr : Framer} {b : Byte} (h : fr.rxState = .waitLen) (hb : b = marker) :
    fr.rxByte b = ({ rxState := .waitCode, p := 1, rxBuf := fr.rxBuf.set 0 b }, .none) := by
  simp [Framer.rxByte, Framer.store, h, hb]

/-- R89, WaitLen, any other byte. -/
theorem Framer.rxByte_waitLen_other {fr : Framer} {b : Byte} (h : fr.rxState = .waitLen) (hb : b ≠ marker) :
    fr.rxByte b = (fr.clear, .discard .badMarker) := by
  simp [Framer.rxByte, h, hb]

/-- R89, WaitCode, a response code. -/
theorem Framer.rxByte_waitCode_code {fr : Framer} {b : Byte} (h : fr.rxState = .waitCode) (hb : b ∈ respCodes) :
    fr.rxByte b = ({ rxState := .data, p := 2, rxBuf := fr.rxBuf.set 1 b }, .none) := by
  simp [Framer.rxByte, Framer.store, h, hb]

/-- R89, WaitCode, any other byte. -/
theorem Framer.rxByte_waitCode_other {fr : Framer} {b : Byte} (h : fr.rxState = .waitCode) (hb : b ∉ respCodes) :
    fr.rxByte b = (fr.clear, .discard .badCode) := by
  simp [Framer.rxByte, h, hb]

/-- R89, Data, a byte that does not complete the candidate. -/
theorem Framer.rxByte_data_store {fr : Framer} {b : Byte} (h : fr.rxState = .data) (hp : fr.p.val + 1 < 16) :
    fr.rxByte b = ({ rxState := .data, p := ⟨fr.p.val + 1, hp⟩, rxBuf := fr.rxBuf.set fr.p b }, .none) := by
  simp [Framer.rxByte, Framer.store, h, hp]

/-- R89, Data, the sixteenth byte. -/
theorem Framer.rxByte_data_complete {fr : Framer} {b : Byte} (h : fr.rxState = .data) (hp : fr.p = 15) :
    fr.rxByte b =
      ({ rxState := .waitLen, p := 0, rxBuf := fr.rxBuf.set 15 b }, judge (fr.rxBuf.set 15 b)) := by
  have hlt : ¬ fr.p.val + 1 < 16 := by omega
  unfold Framer.rxByte
  simp only [h, dif_neg hlt]
  simp [Framer.store, Framer.clear, hp]

/-- R89, R91: everything one received byte can do. -/
theorem Framer.rxByte_cases (fr : Framer) (b : Byte) :
    (fr.rxState = .waitLen ∧ b = marker ∧
      fr.rxByte b = ({ rxState := .waitCode, p := 1, rxBuf := fr.rxBuf.set 0 b }, .none)) ∨
    (fr.rxState = .waitLen ∧ b ≠ marker ∧ fr.rxByte b = (fr.clear, .discard .badMarker)) ∨
    (fr.rxState = .waitCode ∧ b ∈ respCodes ∧
      fr.rxByte b = ({ rxState := .data, p := 2, rxBuf := fr.rxBuf.set 1 b }, .none)) ∨
    (fr.rxState = .waitCode ∧ b ∉ respCodes ∧ fr.rxByte b = (fr.clear, .discard .badCode)) ∨
    (fr.rxState = .data ∧ ∃ hp : fr.p.val + 1 < 16,
      fr.rxByte b = ({ rxState := .data, p := ⟨fr.p.val + 1, hp⟩, rxBuf := fr.rxBuf.set fr.p b }, .none)) ∨
    (fr.rxState = .data ∧ fr.p = 15 ∧ fr.rxByte b =
      ({ rxState := .waitLen, p := 0, rxBuf := fr.rxBuf.set 15 b }, judge (fr.rxBuf.set 15 b))) := by
  cases h : fr.rxState with
  | waitLen =>
    by_cases hb : b = marker
    · exact .inl ⟨rfl, hb, Framer.rxByte_waitLen_marker h hb⟩
    · exact .inr (.inl ⟨rfl, hb, Framer.rxByte_waitLen_other h hb⟩)
  | waitCode =>
    by_cases hb : b ∈ respCodes
    · exact .inr (.inr (.inl ⟨rfl, hb, Framer.rxByte_waitCode_code h hb⟩))
    · exact .inr (.inr (.inr (.inl ⟨rfl, hb, Framer.rxByte_waitCode_other h hb⟩)))
  | data =>
    by_cases hp : fr.p.val + 1 < 16
    · exact .inr (.inr (.inr (.inr (.inl ⟨rfl, hp, Framer.rxByte_data_store h hp⟩))))
    · have hp15 : fr.p = 15 := by omega
      exact .inr (.inr (.inr (.inr (.inr ⟨rfl, hp15, Framer.rxByte_data_complete h hp15⟩))))

/-- R110: everything the verdict on a candidate can be. -/
theorem judge_cases (f : Frame) :
    (f[14] ≠ checksum f ∧ judge f = .discard .badChecksum) ∨
    (f[14] = checksum f ∧ f[15] ≠ terminator ∧ judge f = .discard .badTerminator) ∨
    (f[14] = checksum f ∧ f[15] = terminator ∧ judge f = .frame f) := by
  unfold judge
  split_ifs <;> simp_all

@[simp] theorem Framer.rxBytes_nil (fr : Framer) : fr.rxBytes [] = (fr, []) := rfl

@[simp] theorem Framer.rxBytes_cons (fr : Framer) (b : Byte) (bs : List Byte) :
    fr.rxBytes (b :: bs) = (((fr.rxByte b).1.rxBytes bs).1, (fr.rxByte b).2 :: ((fr.rxByte b).1.rxBytes bs).2) := rfl

/-- R93: how the bytes are grouped into bursts does not matter. -/
theorem Framer.rxBytes_append (fr : Framer) (as bs : List Byte) :
    fr.rxBytes (as ++ bs) =
      (((fr.rxBytes as).1.rxBytes bs).1, (fr.rxBytes as).2 ++ ((fr.rxBytes as).1.rxBytes bs).2) := by
  induction as generalizing fr with
  | nil => simp
  | cons a as ih => simp [ih]

/-- R26: one event for each received byte. -/
@[simp] theorem Framer.length_rxBytes (fr : Framer) (bs : List Byte) : (fr.rxBytes bs).2.length = bs.length := by
  induction bs generalizing fr with
  | nil => simp
  | cons b bs ih => simp [ih]

/-- What taking the host's next action answers. -/
theorem State.takeAction_nil {s : State} (h : s.input = []) : s.takeAction = none := by
  simp [State.takeAction, h]

theorem State.takeAction_cons {s : State} {a : HostAction} {rest : List HostAction} (h : s.input = a :: rest) :
    s.takeAction = some (a, { s with input := rest }) := by
  simp [State.takeAction, h]

/-- The step when the host presents nothing. -/
theorem step_nil {s : State} (h : s.input = []) : step s = .next s.idle := by
  simp [step, State.takeAction_nil h]

/-- The step when the host presents a transaction. -/
theorem step_transact {s : State} {t : Transaction} {rest : List HostAction} (h : s.input = .transact t :: rest) :
    step s = runTransaction t { s with input := rest } := by
  simp [step, State.takeAction_cons h]

/-- The step when the host applies reset. -/
theorem step_reset {s : State} {rest : List HostAction} (h : s.input = .reset :: rest) :
    step s = .next (State.hostReset { s with input := rest }) := by
  simp [step, State.takeAction_cons h]

@[simp] theorem rxActions_nil : rxActions [] = [] := rfl

@[simp] theorem rxActions_cons (b : Byte) (bs : List Byte) :
    rxActions (b :: bs) = .transact (encode (.rxByte b)) :: rxActions bs := rfl

@[simp] theorem rxActions_append (as bs : List Byte) : rxActions (as ++ bs) = rxActions as ++ rxActions bs :=
  List.map_append

@[simp] theorem length_rxActions (bs : List Byte) : (rxActions bs).length = bs.length := List.length_map _

/-- Everything exec can do: it always answers a next state with one event, in which the receiver is left, cleared, or fed
one received byte; the host's list is untouched, but for a delivered frame's fifteen further bytes. -/
theorem exec_cases (i : Instr) (s : State) :
    (∃ e, exec i s = .next (s.emit e)) ∨
    (exec i s = .next s.clearReceiver) ∨
    (∃ c prm, exec i s = .next (s.sendCommand c prm)) ∨
    (∃ b, exec i s = .next (s.receiveByte b)) ∨
    (∃ f, exec i s = .next (s.receiveFrame f)) := by
  cases i with
  | nop => exact .inl ⟨_, rfl⟩
  | checksum f => exact .inl ⟨_, rfl⟩
  | validate f => exact .inl ⟨_, rfl⟩
  | rxClear => exact .inr (.inl rfl)
  | txEncode c prm => exact .inr (.inr (.inl ⟨_, _, rfl⟩))
  | cmdR prm => exact .inr (.inr (.inl ⟨_, _, rfl⟩))
  | cmdV prm => exact .inr (.inr (.inl ⟨_, _, rfl⟩))
  | cmdF prm => exact .inr (.inr (.inl ⟨_, _, rfl⟩))
  | cmdP prm => exact .inr (.inr (.inl ⟨_, _, rfl⟩))
  | cmdI prm => exact .inr (.inr (.inl ⟨_, _, rfl⟩))
  | rxByte b => exact .inr (.inr (.inr (.inl ⟨_, rfl⟩)))
  | rspR d k => exact .inr (.inr (.inr (.inr ⟨_, rfl⟩)))
  | rspV d k => exact .inr (.inr (.inr (.inr ⟨_, rfl⟩)))
  | rspS d k => exact .inr (.inr (.inr (.inr ⟨_, rfl⟩)))

end Sys2Proof.Machine
end

