-- ==== Sys2Proof/Laws/PerInstr.lean ====
section
/-! SUPPORT. Per instruction: its encoding matches its row of spec/opcode_table.json, match and mask copied from the
table's text (an OP32 row's 32-bit numbers, a FRAME16 row's sixteen bytes, byte 0 first). -/

namespace Sys2Proof.Laws.TableRow

/-- An operation word under a row's match and mask. -/
def wordMatches (t : Transaction) (mtch mask : OpWord) : Prop := ∃ w bus, t = .op w bus ∧ w &&& mask = mtch

/-- A frame under a row's match and mask, byte by byte. -/
def frameMatches (f mtch mask : Frame) : Prop := ∀ i : Fin 16, f[i] &&& mask[i] = mtch[i]

/-- The match of the five command rows and the three response rows: the marker, the code, and zeros. -/
def frameMatch (c : Byte) : Frame := #v[0x0F#8, c, 0, 0, 0, 0, 0, 0, 0, 0, 0, 0, 0, 0, 0, 0]

/-- FFFF0000FFFFFFFFFFFFFFFFFFFF00FF. -/
def commandMask : Frame :=
  #v[0xFF#8, 0xFF#8, 0, 0, 0xFF#8, 0xFF#8, 0xFF#8, 0xFF#8, 0xFF#8, 0xFF#8, 0xFF#8, 0xFF#8, 0xFF#8, 0xFF#8, 0, 0xFF#8]

/-- FFFF00000000000000000000000000FF. -/
def responseMask : Frame := #v[0xFF#8, 0xFF#8, 0, 0, 0, 0, 0, 0, 0, 0, 0, 0, 0, 0, 0, 0xFF#8]

/-- The instruction's encoding lies in its row. -/
def Statement (i : Instr) : Prop :=
  match i with
  | .nop => wordMatches (encode i) 0x00000000#32 0xFFFFFFFF#32
  | .rxByte _ => wordMatches (encode i) 0x01000000#32 0xFFFFFF00#32
  | .rxClear => wordMatches (encode i) 0x02000000#32 0xFFFFFFFF#32
  | .txEncode _ _ => wordMatches (encode i) 0x03000000#32 0xFF000000#32
  | .checksum _ => wordMatches (encode i) 0x04000000#32 0xFFFFFFFF#32
  | .validate _ => wordMatches (encode i) 0x05000000#32 0xFFFFFFFF#32
  | .cmdR _ => ∃ f, encode i = .send f ∧ frameMatches f (frameMatch 0x72#8) commandMask
  | .cmdV _ => ∃ f, encode i = .send f ∧ frameMatches f (frameMatch 0x76#8) commandMask
  | .cmdF _ => ∃ f, encode i = .send f ∧ frameMatches f (frameMatch 0x46#8) commandMask
  | .cmdP _ => ∃ f, encode i = .send f ∧ frameMatches f (frameMatch 0x50#8) commandMask
  | .cmdI _ => ∃ f, encode i = .send f ∧ frameMatches f (frameMatch 0x49#8) commandMask
  | .rspR _ _ => ∃ f, encode i = .receive f ∧ frameMatches f (frameMatch 0x72#8) responseMask
  | .rspV _ _ => ∃ f, encode i = .receive f ∧ frameMatches f (frameMatch 0x76#8) responseMask
  | .rspS _ _ => ∃ f, encode i = .receive f ∧ frameMatches f (frameMatch 0x73#8) responseMask

/-- The serializer's frame lies in the row of its code. -/
theorem encodeFrame_matches (c : Byte) (prm : Param) :
    frameMatches (encodeFrame c prm) (frameMatch c) commandMask := by
  intro i
  fin_cases i <;> simp [encodeFrame, commandLayout, frameMatch, commandMask, marker, terminator]
  exact BitVec.and_allOnes

/-- A response frame lies in the row of its code, whatever its payload and checksum byte. -/
theorem responseFrame_matches (c : Byte) (d : Payload) (k : Byte) :
    frameMatches (responseFrame c d k) (frameMatch c) responseMask := by
  intro i
  fin_cases i <;> simp [responseFrame, frameMatch, responseMask, marker, terminator]
  exact BitVec.and_allOnes

theorem nop : Statement .nop := ⟨_, _, rfl, by decide⟩

theorem rxByte (b : Byte) : Statement (.rxByte b) := by
  refine ⟨_, _, rfl, ?_⟩
  revert b
  decide

theorem rxClear : Statement .rxClear := ⟨_, _, rfl, by decide⟩

theorem txEncode (c : Byte) (prm : Param) : Statement (.txEncode c prm) := by
  refine ⟨_, _, rfl, ?_⟩
  apply BitVec.eq_of_getLsbD_eq
  intro j hj
  rw [BitVec.getLsbD_and, getLsbD_opWord]
  interval_cases j <;> simp

theorem checksum (f : Frame) : Statement (.checksum f) := ⟨_, _, rfl, by decide⟩

theorem validate (f : Frame) : Statement (.validate f) := ⟨_, _, rfl, by decide⟩

theorem cmdR (prm : Param) : Statement (.cmdR prm) := ⟨_, rfl, encodeFrame_matches _ _⟩

theorem cmdV (prm : Param) : Statement (.cmdV prm) := ⟨_, rfl, encodeFrame_matches _ _⟩

theorem cmdF (prm : Param) : Statement (.cmdF prm) := ⟨_, rfl, encodeFrame_matches _ _⟩

theorem cmdP (prm : Param) : Statement (.cmdP prm) := ⟨_, rfl, encodeFrame_matches _ _⟩

theorem cmdI (prm : Param) : Statement (.cmdI prm) := ⟨_, rfl, encodeFrame_matches _ _⟩

theorem rspR (d : Payload) (k : Byte) : Statement (.rspR d k) := ⟨_, rfl, responseFrame_matches _ _ _⟩

theorem rspV (d : Payload) (k : Byte) : Statement (.rspV d k) := ⟨_, rfl, responseFrame_matches _ _ _⟩

theorem rspS (d : Payload) (k : Byte) : Statement (.rspS d k) := ⟨_, rfl, responseFrame_matches _ _ _⟩

end Sys2Proof.Laws.TableRow
end

