-- ==== Sys2Proof/Laws/State.lean ====
section
/-! SUPPORT. What each update of the state does to each field, one lemma per field per update, so that no later proof
unfolds a record update. -/

namespace Sys2Proof.Machine

section framerUpdates
variable (fr : Framer) (i : Fin 16) (b : Byte)

@[simp] theorem Framer.clear_rxState : fr.clear.rxState = .waitLen := rfl
@[simp] theorem Framer.clear_p : fr.clear.p = 0 := rfl
@[simp] theorem Framer.clear_rxBuf : fr.clear.rxBuf = fr.rxBuf := rfl
@[simp] theorem Framer.store_rxState : (fr.store i b).rxState = fr.rxState := rfl
@[simp] theorem Framer.store_p : (fr.store i b).p = fr.p := rfl
@[simp] theorem Framer.store_rxBuf : (fr.store i b).rxBuf = fr.rxBuf.set i b := rfl
@[simp] theorem Framer.reset_rxState : Framer.reset.rxState = .waitLen := rfl
@[simp] theorem Framer.reset_p : Framer.reset.p = 0 := rfl

end framerUpdates

section stateUpdates
variable (s : State) (e : Event) (b : Byte) (f : Frame) (c : Byte) (prm : Param) (a : HostAction)

@[simp] theorem State.emit_framer : (s.emit e).framer = s.framer := rfl
@[simp] theorem State.emit_event : (s.emit e).event = some e := rfl
@[simp] theorem State.emit_input : (s.emit e).input = s.input := rfl
@[simp] theorem State.receiveByte_framer : (s.receiveByte b).framer = (s.framer.rxByte b).1 := rfl
@[simp] theorem State.receiveByte_event : (s.receiveByte b).event = some ((s.framer.rxByte b).2) := rfl
@[simp] theorem State.receiveByte_input : (s.receiveByte b).input = s.input := rfl
@[simp] theorem State.receiveFrame_framer : (s.receiveFrame f).framer = (s.framer.rxByte f[0]).1 := rfl
@[simp] theorem State.receiveFrame_event : (s.receiveFrame f).event = some (s.framer.rxByte f[0]).2 := rfl
@[simp] theorem State.receiveFrame_input :
    (s.receiveFrame f).input = rxActions (f.toList.drop 1) ++ s.input := rfl
@[simp] theorem State.sendCommand_framer : (s.sendCommand c prm).framer = s.framer.clear := rfl
@[simp] theorem State.sendCommand_event : (s.sendCommand c prm).event = some (.txFrame (encodeFrame c prm)) := rfl
@[simp] theorem State.sendCommand_input : (s.sendCommand c prm).input = s.input := rfl
@[simp] theorem State.clearReceiver_framer : s.clearReceiver.framer = s.framer.clear := rfl
@[simp] theorem State.clearReceiver_event : s.clearReceiver.event = some .none := rfl
@[simp] theorem State.clearReceiver_input : s.clearReceiver.input = s.input := rfl
@[simp] theorem State.hostReset_framer : s.hostReset.framer = Framer.reset := rfl
@[simp] theorem State.hostReset_event : s.hostReset.event = none := rfl
@[simp] theorem State.hostReset_input : s.hostReset.input = s.input := rfl
@[simp] theorem State.idle_framer : s.idle.framer = s.framer := rfl
@[simp] theorem State.idle_event : s.idle.event = none := rfl
@[simp] theorem State.idle_input : s.idle.input = s.input := rfl
@[simp] theorem State.present_framer : (s.present a).framer = s.framer := rfl
@[simp] theorem State.present_event : (s.present a).event = s.event := rfl
@[simp] theorem State.present_input : (s.present a).input = a :: s.input := rfl
@[simp] theorem State.reset_framer : State.reset.framer = Framer.reset := rfl
@[simp] theorem State.reset_event : State.reset.event = none := rfl
@[simp] theorem State.reset_input : State.reset.input = [] := rfl

end stateUpdates

end Sys2Proof.Machine
end

