-- ==== Sys2Proof/Tests/Slice0.lean ====
section
/-! SUPPORT. Tests: well-formedness smoke, words written out from spec/30_encoding.md, vectors of
spec/95_test_vectors.md (named by their ids), and a witness for every statement that has hypotheses. Expected values
come from the spec's text. -/

namespace Sys2Proof.Tests

open Sys2Proof.Machine

/-- Frame V of 95_test_vectors. -/
def frameV : Frame := #v[0x0F, 0x76, 0xF8, 0x16, 0x19, 0, 0, 0, 0x19, 0, 0, 0, 0, 0, 0xB6, 0x00]

/-- Frame R of 95_test_vectors. -/
def frameR : Frame := #v[0x0F, 0x72, 0x0D, 0x16, 0x39, 0x17, 0x20, 0x03, 0, 0, 0, 0, 0, 0, 0x08, 0x00]

/-- Frame V with other last bytes. -/
def frameVWith (k z : Byte) : Frame := (frameV.set 14 k).set 15 z

/-- TX-1, the command frame of `tx 'F', 5880`. -/
def frameF5880 : Frame := #v[0x0F, 0x46, 0xF8, 0x16, 0, 0, 0, 0, 0, 0, 0, 0, 0, 0, 0x54, 0x00]

/-- A state whose receiver stands at (x, p) with the given buffer. -/
def at_ (x : RxState) (p : Fin 16) (buf : Frame) : State :=
  { framer := { rxState := x, p := p, rxBuf := buf }, event := none, input := [] }

/-- A state with one action of the host pending. -/
def presents (t : Transaction) : State := State.reset.present (.transact t)

/-- The next state, if there is one. -/
def answer (o : Host.Outcome State Fault Refusal) : Option State :=
  match o with
  | .next s => some s
  | .fault _ => none
  | .refused _ => none

/-- The receiver's position and the event of an answer. -/
def shown (o : Host.Outcome State Fault Refusal) : Option (RxState × Fin 16 × Option Event) :=
  (answer o).map fun s => (s.framer.rxState, s.framer.p, s.event)

/-! ## Well-formedness -/

theorem test_wf_rspR_bad_checksum : (Instr.rspR (payloadOf frameR) 0x09).wellFormed = false := by decide
theorem test_wf_rspV_bad_checksum : (Instr.rspV (payloadOf frameV) 0xB7).wellFormed = false := by decide
theorem test_wf_rspS_bad_checksum : (Instr.rspS (payloadOf frameV) 0xB6).wellFormed = false := by decide
theorem test_wf_rspR_good : (Instr.rspR (payloadOf frameR) 0x08).wellFormed = true := by decide
theorem test_wf_rx_range : (AsmLine.rx 256).wellFormed = false := by decide
theorem test_wf_tx_code_range : (AsmLine.tx (.num 256) 0).wellFormed = false := by decide
theorem test_wf_tx_param_range : (AsmLine.tx (.char 'F') 65536).wellFormed = false := by decide
theorem test_wf_chk_length : (AsmLine.chk [1, 2]).wellFormed = false := by decide
theorem test_wf_val_byte_range : (AsmLine.val (256 :: List.replicate 15 0)).wellFormed = false := by decide
theorem test_wf_word_range : (AsmLine.word 4294967296).wellFormed = false := by decide
theorem test_wf_rxs_empty : (PseudoLine.rxs []).wellFormed = false := by decide
theorem test_wf_rxf_length : (PseudoLine.rxf [15]).wellFormed = false := by decide
theorem test_wf_txq_range : (PseudoLine.txq (.num 256)).wellFormed = false := by decide
theorem test_wf_txfreq_range : (PseudoLine.txfreq 65536).wellFormed = false := by decide
theorem test_wf_txpow_range : (PseudoLine.txpow 65536).wellFormed = false := by decide

/-! ## Decoding: words written out from R52 as RES, OPC, CODE, PARAM -/

theorem test_decode_nop : decode (.op 0b00000_000_00000000_0000000000000000#32 0) = .instr .nop := by decide
theorem test_decode_rxByte : decode (.op 0b00000_001_00000000_0000000011111111#32 0) = .instr (.rxByte 0xFF) := by decide
theorem test_decode_rxClear : decode (.op 0b00000_010_00000000_0000000000000000#32 0) = .instr .rxClear := by decide
theorem test_decode_txEncode :
    decode (.op 0b00000_011_01000110_0001011011111000#32 0) = .instr (.txEncode 0x46 0x16F8) := by decide
theorem test_decode_checksum : decode (.op 0b00000_100_00000000_0000000000000000#32 (0xB6 <<< 112 ||| 0x760F)) =
    .instr (.checksum #v[0x0F, 0x76, 0, 0, 0, 0, 0, 0, 0, 0, 0, 0, 0, 0, 0xB6, 0]) := by decide
theorem test_decode_validate : decode (.op 0b00000_101_00000000_0000000000000000#32 (0x01 <<< 120)) =
    .instr (.validate #v[0, 0, 0, 0, 0, 0, 0, 0, 0, 0, 0, 0, 0, 0, 0, 0x01]) := by decide
theorem test_decode_cmdR :
    decode (.send #v[0x0F, 0x72, 0, 0, 0, 0, 0, 0, 0, 0, 0, 0, 0, 0, 0x72, 0]) = .instr (.cmdR 0) := by decide
theorem test_decode_cmdV :
    decode (.send #v[0x0F, 0x76, 0, 0x01, 0, 0, 0, 0, 0, 0, 0, 0, 0, 0, 0x77, 0]) = .instr (.cmdV 0x0100) := by decide
theorem test_decode_cmdF : decode (.send frameF5880) = .instr (.cmdF 5880) := by decide
theorem test_decode_cmdP :
    decode (.send #v[0x0F, 0x50, 0x58, 0x02, 0, 0, 0, 0, 0, 0, 0, 0, 0, 0, 0xAA, 0]) = .instr (.cmdP 600) := by decide
theorem test_decode_cmdI :
    decode (.send #v[0x0F, 0x49, 0x01, 0, 0, 0, 0, 0, 0, 0, 0, 0, 0, 0, 0x4A, 0]) = .instr (.cmdI 1) := by decide
theorem test_decode_rspR : decode (.receive frameR) =
    .instr (.rspR #v[0x0D, 0x16, 0x39, 0x17, 0x20, 0x03, 0, 0, 0, 0, 0, 0] 0x08) := by decide
theorem test_decode_rspV : decode (.receive frameV) =
    .instr (.rspV #v[0xF8, 0x16, 0x19, 0, 0, 0, 0x19, 0, 0, 0, 0, 0] 0xB6) := by decide
theorem test_decode_rspS : decode (.receive #v[0x0F, 0x73, 0, 0, 0, 0, 0, 0, 0, 0, 0, 0, 0, 0, 0x73, 0]) =
    .instr (.rspS (Vector.replicate 12 0) 0x73) := by decide
theorem test_decode_dc_illegal :
    ([0x01000100#32, 0x0100FF0F#32, 0x02000001#32, 0x02010000#32, 0x04000001#32, 0x05010000#32, 0x06000000#32,
      0x07FFFFFF#32, 0x08000000#32, 0x0B000000#32, 0x80000000#32, 0xFFFFFFFF#32].all fun w =>
        decode (.op w 0) = .rejected (.illegalWord w)) = true := by decide
theorem test_decode_not_a_command : decode (.send frameV) = .rejected (.notACommandFrame frameV) := by decide
theorem test_decode_not_a_response : decode (.receive frameF5880) = .rejected (.notAResponseFrame frameF5880) := by decide
theorem test_encode_tx : encode (.txEncode 0x46 5880) = .op 0x034616F8 0 := by decide
theorem test_encode_rx : encode (.rxByte 0x0F) = .op 0x0100000F 0 := by decide
theorem test_tableWord_op : decodeTableWord 32 0x034616F8 = some (.txEncode 0x46 0x16F8) := by decide
theorem test_tableWord_notAFrame : decodeTableWord 128 0x000800000000000003201739160D7200 = none := by decide
theorem test_tableWord_rsp : decodeTableWord 128 0x000800000000000003201739160D720F =
    some (.rspR #v[0x0D, 0x16, 0x39, 0x17, 0x20, 0x03, 0, 0, 0, 0, 0, 0] 0x08) := by decide
theorem test_tableWord_cmd : decodeTableWord 128 0x005400000000000000000000_16F8460F = some (.cmdF 5880) := by decide

/-! ## Pure functions and field views -/

theorem test_checksum_CK3 : checksum (#v[0x0F, 0xFF, 0xFF, 0xFF, 0xFF, 0xFF, 0xFF, 0xFF, 0xFF, 0xFF, 0xFF, 0xFF, 0xFF, 0xFF, 0, 0]) =
    0xF3 := by decide
theorem test_checksum_CK8 : checksum (#v[0x0F, 1, 2, 3, 4, 5, 6, 7, 8, 9, 10, 11, 12, 13, 0xEE, 0xEE]) = 0x5B := by decide
theorem test_encode_TX9 : encodeFrame 0xFF 0xFFFF = #v[0x0F, 0xFF, 0xFF, 0xFF, 0, 0, 0, 0, 0, 0, 0, 0, 0, 0, 0xFD, 0] := by decide
theorem test_fields_S6 : (minFreq frameR, maxFreq frameR, maxPower frameR) = (5645, 5945, 800) := by decide
theorem test_fields_V : (freq frameV, configuredPower frameV, pitmode frameV, actualPower frameV) = (5880, 25, 0, 25) := by decide

/-! ## Instructions, one step each -/

theorem test_nop_NP2 : shown (exec .nop (at_ .waitCode 1 frameV)) = some (.waitCode, 1, some (.none)) := by decide
theorem test_rxByte_RS6 : shown (exec (.rxByte 0x0F) (at_ .waitCode 1 frameV)) =
    some (.waitLen, 0, some (.discard .badCode)) := by decide
theorem test_rxByte_RS13 : shown (exec (.rxByte 0x01) (at_ .data 15 (frameVWith 0xB5 0))) =
    some (.waitLen, 0, some (.discard .badChecksum)) := by decide
theorem test_rxClear_CL4 : shown (exec .rxClear (at_ .data 15 frameV)) = some (.waitLen, 0, some (.none)) := by decide
theorem test_txEncode_TX15 : shown (exec (.txEncode 0x46 5880) (at_ .data 5 frameV)) =
    some (.waitLen, 0, some (.txFrame frameF5880)) := by decide
theorem test_txEncode_TX14 : shown (exec (.txEncode 0x46 0x00BA) (at_ .waitLen 0 frameV)) =
    some (.waitLen, 0, some (.txFrame #v[0x0F, 0x46, 0xBA, 0, 0, 0, 0, 0, 0, 0, 0, 0, 0, 0, 0x00, 0])) := by decide
theorem test_checksum_CK6 : shown (exec (.checksum frameV) (at_ .data 7 frameV)) = some (.data, 7, some (.chk 0xB6)) := by decide
theorem test_checksum_CK4 : shown (exec (.checksum #v[0xFF, 0, 0, 0, 0, 0, 0, 0, 0, 0, 0, 0, 0, 0, 0xFF, 0xFF])
    (at_ .data 7 frameV)) = some (.data, 7, some (.chk 0x00)) := by decide
theorem test_validate_VA5 : shown (exec (.validate (frameF5880.set 0 0)) (at_ .waitLen 0 frameV)) =
    some (.waitLen, 0, some (.valid true)) := by decide
theorem test_validate_VA3 : shown (exec (.validate (frameVWith 0xB6 0x01)) (at_ .waitLen 0 frameV)) =
    some (.waitLen, 0, some (.valid false)) := by decide
theorem test_cmdR_TX4 : shown (exec (.cmdR 0) (at_ .data 9 frameV)) =
    some (.waitLen, 0, some (.txFrame #v[0x0F, 0x72, 0, 0, 0, 0, 0, 0, 0, 0, 0, 0, 0, 0, 0x72, 0])) := by decide
theorem test_cmdV_TX11 : shown (exec (.cmdV 0x0100) (at_ .waitLen 0 frameV)) =
    some (.waitLen, 0, some (.txFrame #v[0x0F, 0x76, 0, 0x01, 0, 0, 0, 0, 0, 0, 0, 0, 0, 0, 0x77, 0])) := by decide
theorem test_cmdF_TX1 : shown (exec (.cmdF 5880) (at_ .waitCode 1 frameV)) =
    some (.waitLen, 0, some (.txFrame frameF5880)) := by decide
theorem test_cmdP_TX6 : shown (exec (.cmdP 600) (at_ .waitLen 0 frameV)) =
    some (.waitLen, 0, some (.txFrame #v[0x0F, 0x50, 0x58, 0x02, 0, 0, 0, 0, 0, 0, 0, 0, 0, 0, 0xAA, 0])) := by decide
theorem test_cmdI_TX8 : shown (exec (.cmdI 1) (at_ .waitLen 0 frameV)) =
    some (.waitLen, 0, some (.txFrame #v[0x0F, 0x49, 0x01, 0, 0, 0, 0, 0, 0, 0, 0, 0, 0, 0, 0x4A, 0])) := by decide
theorem test_rspR_first : shown (exec (.rspR (payloadOf frameR) 0x08) (at_ .waitLen 0 frameV)) =
    some (.waitCode, 1, some (.none)) := by decide
theorem test_rspR_S6 : (Framer.reset.rxBytes (responseFrame codeR (payloadOf frameR) 0x08).toList).2 =
    List.replicate 15 .none ++ [.frame frameR] := by decide
theorem test_rspV_RX7 : shown (exec (.rspV (payloadOf frameV) 0xB6) (at_ .waitCode 1 frameV)) =
    some (.waitLen, 0, some (.discard .badCode)) := by decide
theorem test_rspV_rest : (answer (exec (.rspV (payloadOf frameV) 0xB6) (at_ .waitLen 0 frameV))).map
    (fun t => (t.input.head?, t.input.length)) = some (some (.transact (.op 0x01000076 0)), 15) := by decide
theorem test_rspS_first : shown (exec (.rspS (Vector.replicate 12 0) 0x73) (at_ .data 15 (frameVWith 0xB6 0))) =
    some (.waitLen, 0, some (.discard .badTerminator)) := by decide
theorem test_rxBytes_RX2 : (Framer.reset.rxBytes (frameVWith 0xB7 0).toList).2 =
    List.replicate 15 .none ++ [.discard .badChecksum] := by decide
theorem test_rxBytes_RX10 : (Framer.reset.rxBytes frameF5880.toList).2 =
    .none :: .discard .badCode :: List.replicate 14 (.discard .badMarker) := by decide
/-- R125 case 2 and log 23: after the echo of EC-2, the bytes 76 + D5 = 4B and 00 complete the stale candidate. -/
theorem test_rxBytes_staleEcho : (Framer.reset.rxBytes ((encodeFrame codeP 0x760F).toList ++ [0x4B, 0x00])).2.getLast? =
    some (.frame #v[0x0F, 0x76, 0, 0, 0, 0, 0, 0, 0, 0, 0, 0, 0xD5, 0, 0x4B, 0]) := by decide

/-! ## The step -/

theorem test_step_illegal_DC20 : shown (step ((at_ .data 7 frameV).present (.transact (.op 0x06000000 0)))) =
    some (.data, 7, some (.illegal 0x06000000)) := by decide
theorem test_step_reset : shown (step ((at_ .data 7 frameV).present .reset)) = some (.waitLen, 0, none) := by decide
theorem test_step_fetchWord : answer (step (State.reset.withFetchWord 32 0x0100000F)) =
    answer (exec (.rxByte 0x0F) State.reset) := by decide
theorem test_step_echo : shown (step (presents (.receive frameF5880))) = some (.waitCode, 1, some (.none)) := by decide
theorem test_step_unbuildable : answer (step (presents (.send frameV))) = none := by decide
theorem test_asm_tx : assemble (.tx (.char 'F') 5880) = some (.op 0x034616F8 0) := by decide
theorem test_port_rxState : [0#2, 1#2, 2#2, 3#2].map rxStateOfCode =
    [some .waitLen, some .waitCode, some .data, none] := by decide
theorem test_port_unlistedBit : (eventOfPort 4 0x5B, eventOfPort 4 0x15B) = (some (.chk 0x5B), none) := by decide
theorem test_port_kind7 : eventOfPort 7 0 = none := by decide
/-- Log 20 and log 21: the model's choices. -/
theorem test_asm_openPoints : assemble (.tx (.char 'é') 0) = assemble (.tx (.num 0xE9) 0) ∧ expand none .echo = none := by decide
theorem test_asm_range : (assemble (.rx 256), assemble (.tx (.num 256) 0), assemble (.word 4294967296)) = (none, none, none) := by decide
theorem test_port_discard : (Event.kind (.discard .badTerminator), Event.data (.discard .badTerminator)) = (2, 3) := by decide

/-! ## Witnesses: a state and operands that meet a statement's hypotheses -/

theorem witness_StepRunsDecodedInstruction :
    (presents (.op 0x010000FF 0)).input = .transact (.op 0x010000FF 0) :: [] ∧
      decode (.op 0x010000FF 0) = .instr (.rxByte 0xFF) := by decide
theorem witness_PlacedTableWordRunsNext : decodeTableWord 32 0x02000000 = some .rxClear := by decide
theorem witness_EncodeOfDecodeIsIdentity_word : decode (.op 0x04000000 5) = .instr (.checksum (frameOfBus 5)) := by decide
theorem witness_EncodeOfDecodeIsIdentity_noBus : decode (.op 0x02000000 5) = .instr .rxClear := by decide
theorem witness_EncodeOfDecodeIsIdentity_receive :
    decode (.receive frameV) = .instr (.rspV (payloadOf frameV) 0xB6) := by decide
theorem witness_EncodeOfDecodeIsIdentity_send :
    frameF5880[1] ∈ cmdCodes ∧ decode (.send frameF5880) = .instr (.cmdF 5880) := by decide
theorem witness_DecodingFollowsMatchAndMask_rows :
    0x00000000#32 &&& 0xFFFFFFFF#32 = 0x00000000#32 ∧ 0x010000FF#32 &&& 0xFFFFFF00#32 = 0x01000000#32 ∧
    0x02000000#32 &&& 0xFFFFFFFF#32 = 0x02000000#32 ∧ 0x03FFFFFF#32 &&& 0xFF000000#32 = 0x03000000#32 ∧
    0x04000000#32 &&& 0xFFFFFFFF#32 = 0x04000000#32 ∧ 0x05000000#32 &&& 0xFFFFFFFF#32 = 0x05000000#32 := by decide
theorem witness_DecodingFollowsMatchAndMask_none :
    0x01000100#32 &&& 0xFFFFFFFF#32 ≠ 0x00000000#32 ∧ 0x01000100#32 &&& 0xFFFFFF00#32 ≠ 0x01000000#32 ∧
    0x01000100#32 &&& 0xFFFFFFFF#32 ≠ 0x02000000#32 ∧ 0x01000100#32 &&& 0xFF000000#32 ≠ 0x03000000#32 ∧
    0x01000100#32 &&& 0xFFFFFFFF#32 ≠ 0x04000000#32 ∧ 0x01000100#32 &&& 0xFFFFFFFF#32 ≠ 0x05000000#32 := by decide
theorem witness_IllegalWords : (presents (.op 0x08000000 0)).input = .transact (.op 0x08000000 0) :: [] ∧
    decode (.op 0x08000000 0) = .rejected (.illegalWord 0x08000000) := by decide
theorem witness_IllegalWords_reserved : (0x08000000#32).extractLsb' 27 5 ≠ 0 ∧ (0x80000000#32).extractLsb' 27 5 ≠ 0 ∧
    (0x06000000#32).extractLsb' 24 3 = 6#3 ∧ (0x07FFFFFF#32).extractLsb' 24 3 = 7#3 := by decide
theorem witness_IllegalWords_rxByte : (0x01000100#32).extractLsb' 24 3 = 1#3 ∧ (0x01000100#32).extractLsb' 8 8 ≠ 0 ∧
    (0x01010000#32).extractLsb' 24 3 = 1#3 ∧ (0x01010000#32).extractLsb' 16 8 ≠ 0 := by decide
theorem witness_IllegalWords_mustBeZero : (0x00000001#32).extractLsb' 24 3 = 0#3 ∧ (0x00000001#32).extractLsb' 0 16 ≠ 0 ∧
    (0x02010000#32).extractLsb' 24 3 = 2#3 ∧ (0x02010000#32).extractLsb' 16 8 ≠ 0 ∧
    (0x04000001#32).extractLsb' 24 3 = 4#3 ∧ (0x05010000#32).extractLsb' 24 3 = 5#3 := by decide
theorem witness_RxByte_waitLen : (at_ .waitLen 0 frameV).framer.rxState = .waitLen ∧ 0x0F#8 = 0x0F#8 ∧ 0x10#8 ≠ 0x0F#8 := by decide
theorem witness_RxByte_waitCode : (at_ .waitCode 1 frameV).framer.rxState = .waitCode ∧
    (0x73#8 = 0x72#8 ∨ 0x73#8 = 0x76#8 ∨ 0x73#8 = 0x73#8) ∧
    ¬ (0x74#8 = 0x72#8 ∨ 0x74#8 = 0x76#8 ∨ 0x74#8 = 0x73#8) := by decide
theorem witness_RxByte_data : (at_ .data 14 frameV).framer.rxState = .data ∧ (at_ .data 14 frameV).framer.p.val < 15 ∧
    (at_ .data 15 frameV).framer.rxState = .data ∧ (at_ .data 15 frameV).framer.p.val = 15 := by decide
theorem witness_RxByteWritesOnly : (at_ .data 15 frameV).Inv ∧
    answer (exec (.rxByte 0) (at_ .data 15 frameV)) = some ((at_ .data 15 frameV).receiveByte 0) := by decide
theorem witness_CommandFrames : Instr.cmdF 5880 = .cmdF 5880 ∧ 0x46#8 = 0x46#8 := by decide
theorem witness_CommandFrames_others : (Instr.cmdR 0 = .cmdR 0 ∧ 0x72#8 = 0x72#8) ∧ (Instr.cmdV 0 = .cmdV 0 ∧ 0x76#8 = 0x76#8) ∧
    (Instr.cmdP 600 = .cmdP 600 ∧ 0x50#8 = 0x50#8) ∧ (Instr.cmdI 1 = .cmdI 1 ∧ 0x49#8 = 0x49#8) := by decide
theorem witness_ResponseFrames_others : (Instr.rspV (payloadOf frameV) 0xB6 = .rspV (payloadOf frameV) 0xB6 ∧ 0x76#8 = 0x76#8) ∧
    (Instr.rspS (payloadOf frameV) 0 = .rspS (payloadOf frameV) 0 ∧ 0x73#8 = 0x73#8) ∧ State.reset.framer.rxState = .waitLen := by decide
theorem witness_ResponseFrames : Instr.rspR (payloadOf frameR) 0x08 = .rspR (payloadOf frameR) 0x08 ∧ 0x72#8 = 0x72#8 ∧
    State.reset.framer.rxState = .waitLen := by decide
theorem witness_ChecksumShifts : 1 ≤ (13 : Fin 16).val ∧ (13 : Fin 16).val ≤ 13 ∧ 1 ≤ (1 : Fin 16).val ∧ (1 : Fin 16).val ≤ 13 ∧
    0x01#8 ≠ frameV[13] := by decide
theorem witness_SerializerZeroBytes : 4 ≤ (4 : Fin 16).val ∧ (13 : Fin 16).val ≤ 13 := by decide
theorem witness_SerializerIsInjective : encodeFrame 0x46 5880 = encodeFrame 0x46 5880 := by decide
theorem witness_HostReset : (State.reset.present .reset).input = .reset :: [] := by decide
theorem witness_NothingHappens : State.reset.input = [] := by decide
theorem witness_OperationsNeverTrap : (presents (.op 0xFFFFFFFF 0)).input = .transact (.op 0xFFFFFFFF 0) :: [] := by decide
theorem witness_OnlyUnbuildable : (presents (.send frameV)).input = .transact (.send frameV) :: [] ∧
    decode (.send frameV) = .rejected (.notACommandFrame frameV) := by decide
theorem witness_EachOperationEmitsOneEvent : (presents (.op 0x03760000 0)).input = .transact (.op 0x03760000 0) :: [] ∧
    (answer (step (presents (.op 0x03760000 0)))).isSome := by decide
theorem witness_EachStepTakesOneOperation : (presents (.receive frameF5880)).input = .transact (.receive frameF5880) :: [] ∧
    (answer (step (presents (.receive frameF5880)))).isSome ∧
    (presents (.send frameF5880)).input = .transact (.send frameF5880) :: [] ∧
    (answer (step (presents (.send frameF5880)))).isSome := by decide
theorem witness_RunsShowOneEventAStep : (∀ a ∈ (presents (.op 0x0100000F 0)).input, a ≠ .reset) ∧
    1 ≤ (presents (.op 0x0100000F 0)).input.length ∧
    (State.after 1 (presents (.op 0x0100000F 0))).map (·.2) = some [.none] := by decide
theorem witness_EventPortReadsBack : eventOfPort 4 0x5B = some (.chk 0x5B) := by decide
theorem witness_EveryStepKeeps : (at_ .data 15 frameV).Inv ∧ (answer (step (at_ .data 15 frameV))).isSome := by decide
theorem witness_OnlyReceiverOperationsWrite :
    (answer (exec .rxClear (at_ .data 15 frameV))).map (·.framer) ≠ some (at_ .data 15 frameV).framer ∧
    (answer (exec (.rxByte 0x0F) State.reset)).map (·.framer.rxBuf) ≠ some State.reset.framer.rxBuf := by decide
theorem witness_EventsCome_frame : (answer (exec (.rxByte 0) (at_ .data 15 frameV))).map (·.event) = some (some (.frame frameV)) := by decide
theorem witness_EventsCome_discard : (answer (exec (.rxByte 0) State.reset)).map (·.event) = some (some (.discard .badMarker)) := by decide
theorem witness_EventsCome_txFrame : (answer (exec (.cmdF 5880) State.reset)).map (·.event) = some (some (.txFrame frameF5880)) := by decide
theorem witness_DiscardReasons_badTerminator : (answer (exec (.rxByte 1) (at_ .data 15 frameV))).map (·.event) =
    some (some (.discard .badTerminator)) := by decide
theorem witness_BytesOutside : (at_ .waitCode 1 frameV).Inv ∧
    (at_ .waitCode 1 frameV).framer.rxState = (at_ .waitCode 1 frameR).framer.rxState ∧
    (at_ .waitCode 1 frameV).framer.p = (at_ .waitCode 1 frameR).framer.p ∧
    (∀ i : Fin 16, i < (at_ .waitCode 1 frameV).framer.p →
      (at_ .waitCode 1 frameV).framer.rxBuf[i] = (at_ .waitCode 1 frameR).framer.rxBuf[i]) ∧
    (at_ .waitCode 1 frameV).input = (at_ .waitCode 1 frameR).input ∧
    (answer (step (at_ .waitCode 1 frameV))).isSome := by decide
theorem witness_ByteSteps : (presents (encode (.rxByte 0x0F))).input =
    [0x0F#8].map (fun b => .transact (encode (.rxByte b))) ++ [] := by decide
theorem witness_ReceivedFrame : (presents (.receive frameF5880)).input = .transact (.receive frameF5880) :: [] := by decide
theorem witness_AcceptableFrames : Framer.reset.rxState = .waitLen ∧ accept frameV = true ∧ Framer.reset.Inv := by decide
theorem witness_EmittedFrames : Framer.reset.rxState = .waitLen ∧
    ((Framer.reset.rxBytes (frameV.toList.take 15)).1.rxByte 0).2 = .frame frameV := by decide
theorem witness_QuietPrefix_long : (at_ .data 9 frameV).framer.Inv ∧ accept frameR = true ∧
    15 ≤ (List.replicate 15 0x41#8).length ∧
    ∀ x ∈ (List.replicate 15 0x41#8).drop ((List.replicate 15 0x41#8).length - 15), x ≠ 0x0F#8 := by decide
theorem witness_QuietPrefix_short : Framer.reset.Inv ∧ Framer.reset.rxState = .waitLen ∧
    ∀ x ∈ [0x00#8].drop ([0x00#8].length - 15), x ≠ 0x0F#8 := by decide
theorem witness_Recovers : (at_ .waitCode 1 frameV).framer.Inv ∧ (frameV.toList.drop 1).length = 15 := by decide
theorem witness_Apart : ((at_ .data 15 frameV).framer.rxByte 0).2 = .frame frameV ∧ (frameR.toList.take 15).length ≤ 15 := by decide
theorem witness_Echo_case1 : codeV ∈ respCodes ∧ (answer (exec (.txEncode codeV 0) State.reset)).isSome := by decide
theorem witness_Echo_case2 : codeP ∉ respCodes ∧ loByte 0x760F = 0x0F#8 ∧ hiByte 0x760F ∈ respCodes := by decide
theorem witness_StaleEcho : (answer (exec (.txEncode codeP 0x760F) State.reset)).isSome ∧
    0x4B#8 = hiByte 0x760F + checksum (encodeFrame codeP 0x760F) := by decide
theorem witness_OverStaleEcho : (answer (exec (.txEncode codeP 0x760F) State.reset)).isSome ∧ [0x4B#8].length ≤ 1 ∧
    accept frameV = true := by decide
theorem witness_Echo_case3 : codeF ∉ respCodes ∧ ¬ (loByte 0x16F8 = 0x0F#8 ∧ hiByte 0x16F8 ∈ respCodes) := by decide
theorem witness_Assembler : (0xFF ≤ 0xFF ∧ 0xFFFF ≤ 0xFFFF) ∧ frameV.toList.length = 16 ∧
    (∀ b ∈ frameV.toList.map BitVec.toNat, b ≤ 0xFF) ∧ 0xFFFFFFFF ≤ 0xFFFFFFFF := by decide
theorem witness_Pseudo : [15, 114] ≠ [] ∧ (∀ b ∈ [15, 114], b ≤ 0xFF) ∧ (CodeArg.char 'v').value ≤ 0xFF ∧ 5880 ≤ 0xFFFF := by decide

end Sys2Proof.Tests
end

/-! PROOFS, 00_scope. What running one transaction does, said once for each kind of transaction; from this, that a step is
the step of one operation word and that a run without resets shows one event a step. -/

namespace Sys2Proof.Machine

/-! ## The two operation words that frames are made of -/

/-- R52, R54: the word of RX_BYTE decodes to it. -/
@[simp] theorem decode_encode_rxByte (b : Byte) : decode (encode (.rxByte b)) = .instr (.rxByte b) := by
  have hparam : (0#8 ++ b : Param).toNat = b.toNat := (BitVec.toNat_append 0#8 b).trans (by simp)
  have hword : (opWord 0b001#3 0 (0#8 ++ b)).toNat = 16777216 + b.toNat := by
    simp [toNat_opWord, hparam]
  have hbyte : opByte (opWord 0b001#3 0 (0#8 ++ b)) = b :=
    BitVec.eq_of_toNat_eq (by rw [toNat_opByte, hword]; omega)
  rw [encode, decode, decodeOp_by_range, hword, hbyte, if_neg (by omega), if_pos (by omega)]

/-- R52, R54: the word of TX_ENCODE decodes to it. -/
@[simp] theorem decode_encode_txEncode (c : Byte) (prm : Param) :
    decode (encode (.txEncode c prm)) = .instr (.txEncode c prm) := by
  have hword : (opWord 0b011#3 c prm).toNat = 50331648 + c.toNat * 65536 + prm.toNat := by
    simp [toNat_opWord]
  have hcode : opCode (opWord 0b011#3 c prm) = c :=
    BitVec.eq_of_toNat_eq (by rw [toNat_opCode, hword]; omega)
  have hparam : opParam (opWord 0b011#3 c prm) = prm :=
    BitVec.eq_of_toNat_eq (by rw [toNat_opParam, hword]; omega)
  rw [encode, decode, decodeOp_by_range, hword, hcode, hparam, if_neg (by omega), if_neg (by omega),
    if_neg (by omega), if_pos (by omega)]

/-! ## Running a transaction -/

/-- R15: what the host presents is run by the next step. -/
theorem step_present_transact (x : Transaction) (s : State) : step (s.present (.transact x)) = runTransaction x s :=
  step_transact rfl

theorem runTransaction_instr {x : Transaction} {i : Instr} (h : decode x = .instr i) (s : State) :
    runTransaction x s = exec i s := by
  simp [runTransaction, h]

theorem runTransaction_rejected {x : Transaction} {e : DecodeError} (h : decode x = .rejected e) (s : State) :
    runTransaction x s = undecoded e s := by
  simp [runTransaction, h]

@[simp] theorem runTransaction_encode_rxByte (b : Byte) (s : State) :
    runTransaction (encode (.rxByte b)) s = .next (s.receiveByte b) :=
  runTransaction_instr (decode_encode_rxByte b) s

@[simp] theorem runTransaction_encode_txEncode (c : Byte) (prm : Param) (s : State) :
    runTransaction (encode (.txEncode c prm)) s = .next (s.sendCommand c prm) :=
  runTransaction_instr (decode_encode_txEncode c prm) s

/-- R54: an operation word is decoded as one of R53's six operations, or is ILLEGAL. -/
theorem decode_op_cases (w : OpWord) (bus : Bus) :
    decode (.op w bus) = .instr .nop ∨
    (∃ b, decode (.op w bus) = .instr (.rxByte b)) ∨
    decode (.op w bus) = .instr .rxClear ∨
    (∃ c prm, decode (.op w bus) = .instr (.txEncode c prm)) ∨
    (∃ f, decode (.op w bus) = .instr (.checksum f)) ∨
    (∃ f, decode (.op w bus) = .instr (.validate f)) ∨
    decode (.op w bus) = .rejected (.illegalWord w) := by
  simp only [decode, decodeOp]
  split_ifs <;> simp

/-- R107: an operation word, ill-formed or not, gives a next state and leaves the host's list. -/
theorem runTransaction_op (w : OpWord) (bus : Bus) (s : State) :
    ∃ t, runTransaction (.op w bus) s = .next t ∧ t.input = s.input := by
  obtain h | ⟨b, h⟩ | h | ⟨c, prm, h⟩ | ⟨f, h⟩ | ⟨f, h⟩ | h := decode_op_cases w bus
  · exact ⟨_, runTransaction_instr h s, rfl⟩
  · exact ⟨_, runTransaction_instr h s, rfl⟩
  · exact ⟨_, runTransaction_instr h s, rfl⟩
  · exact ⟨_, runTransaction_instr h s, rfl⟩
  · exact ⟨_, runTransaction_instr h s, rfl⟩
  · exact ⟨_, runTransaction_instr h s, rfl⟩
  · exact ⟨_, runTransaction_rejected h s, rfl⟩

/-- R59, R64: the row of a command frame runs as TX_ENCODE, whatever its code. -/
theorem exec_commandInstr (c : Byte) (prm : Param) (s : State) :
    exec (commandInstr c prm) s = .next (s.sendCommand c prm) := by
  unfold commandInstr
  split_ifs <;> subst_vars <;> rfl

/-- Log 7, log 8: a frame to be sent runs as TX_ENCODE of its code and parameter if the serializer builds it, and is
refused otherwise. -/
theorem runTransaction_send (f : Frame) (s : State) :
    runTransaction (.send f) s =
      if f = encodeFrame f[1] (le16 f[2] f[3]) then .next (s.sendCommand f[1] (le16 f[2] f[3]))
      else .refused (.notACommandFrame f) := by
  split_ifs with hf
  · have hdecode : decode (.send f) = .instr (commandInstr f[1] (le16 f[2] f[3])) := if_pos hf
    rw [runTransaction_instr hdecode, exec_commandInstr]
  · have hdecode : decode (.send f) = .rejected (.notACommandFrame f) := if_neg hf
    exact runTransaction_rejected hdecode s

/-- R60, R62: a delivered frame is decoded as a response row that rebuilds it, or as none. -/
theorem decode_receive_cases (f : Frame) :
    (∃ d k, f = responseFrame codeR d k ∧ decode (.receive f) = .instr (.rspR d k)) ∨
    (∃ d k, f = responseFrame codeV d k ∧ decode (.receive f) = .instr (.rspV d k)) ∨
    (∃ d k, f = responseFrame codeS d k ∧ decode (.receive f) = .instr (.rspS d k)) ∨
    decode (.receive f) = .rejected (.notAResponseFrame f) := by
  simp only [decode, decodeResponse]
  split_ifs with hends hr hv hs
  · exact .inl ⟨_, _, hr ▸ (responseFrame_payloadOf hends.1 hends.2).symm, rfl⟩
  · exact .inr (.inl ⟨_, _, hv ▸ (responseFrame_payloadOf hends.1 hends.2).symm, rfl⟩)
  · exact .inr (.inr (.inl ⟨_, _, hs ▸ (responseFrame_payloadOf hends.1 hends.2).symm, rfl⟩))
  · exact .inr (.inr (.inr rfl))
  · exact .inr (.inr (.inr rfl))

/-- Log 6: a delivered frame, of any pattern, is received byte by byte. -/
@[simp] theorem runTransaction_receive (f : Frame) (s : State) :
    runTransaction (.receive f) s = .next (s.receiveFrame f) := by
  obtain ⟨d, k, rfl, h⟩ | ⟨d, k, rfl, h⟩ | ⟨d, k, rfl, h⟩ | h := decode_receive_cases f
  · exact runTransaction_instr h s
  · exact runTransaction_instr h s
  · exact runTransaction_instr h s
  · exact runTransaction_rejected h s

/-- R14: everything a transaction that is not refused can do; a transaction of no row does no more than `exec` does. -/
theorem runTransaction_cases {x : Transaction} {s t : State} (h : runTransaction x s = .next t) :
    (∃ e, t = s.emit e) ∨ t = s.clearReceiver ∨ (∃ c prm, t = s.sendCommand c prm) ∨
    (∃ b, t = s.receiveByte b) ∨ ∃ f, t = s.receiveFrame f := by
  cases hdecode : decode x with
  | instr i =>
    rw [runTransaction_instr hdecode] at h
    simpa [h] using exec_cases i s
  | rejected e =>
    rw [runTransaction_rejected hdecode] at h
    cases e with
    | illegalWord w => exact .inl ⟨_, (Host.Outcome.next.inj h).symm⟩
    | notACommandFrame f => cases h
    | notAResponseFrame f => exact .inr (.inr (.inr (.inr ⟨_, (Host.Outcome.next.inj h).symm⟩)))

/-! ## A step takes one operation -/

/-- Settles O1. -/
theorem stepRunsDecodedInstruction : Obligations.StepRunsDecodedInstruction := by
  intro s x rest i hinput hdecode
  rw [step_transact hinput, runTransaction_instr hdecode]

/-- Settles O33. -/
theorem nothingHappensWithoutTheHost : Obligations.NothingHappensWithoutTheHost := by
  intro s hinput
  rw [step_nil hinput, State.idle, hinput]

/-- Settles O37: a word stands for itself, a frame to be sent for the word of TX_ENCODE, and a delivered frame for the
word of RX_BYTE on its first byte, with the words of the other fifteen as the further actions. -/
theorem eachStepTakesOneOperation : Obligations.EachStepTakesOneOperation := by
  intro s t x rest hinput hstep
  rw [step_transact hinput] at hstep ⊢
  cases x with
  | op w bus =>
    obtain ⟨u, hrun, hu⟩ := runTransaction_op w bus { s with input := rest }
    obtain rfl : u = t := by simpa [hrun] using hstep
    exact ⟨w, bus, [], (step_present_transact _ _).symm, hu⟩
  | send f =>
    rw [runTransaction_send] at hstep ⊢
    split_ifs at hstep ⊢
    obtain rfl := Host.Outcome.next.inj hstep
    refine ⟨opWord 0b011#3 f[1] (le16 f[2] f[3]), 0, [], ?_, rfl⟩
    rw [← runTransaction_encode_txEncode, ← step_present_transact]
    rfl
  | receive f =>
    rw [runTransaction_receive] at hstep ⊢
    obtain rfl := Host.Outcome.next.inj hstep
    refine ⟨opWord 0b001#3 0 (0#8 ++ f[0]), 0, rxActions (f.toList.drop 1), ?_, rfl⟩
    rw [State.receiveFrame, ← runTransaction_encode_rxByte, ← step_present_transact]
    rfl

/-! ## A run shows one event a step -/

/-- R14, R26: a transaction that is not refused shows an event, and puts on the host's list at most received bytes. -/
theorem runTransaction_shows {x : Transaction} {s t : State} (h : runTransaction x s = .next t) :
    (∃ e, t.event = some e) ∧ ∃ bs, t.input = rxActions bs ++ s.input := by
  obtain ⟨e, rfl⟩ | rfl | ⟨c, prm, rfl⟩ | ⟨b, rfl⟩ | ⟨f, rfl⟩ := runTransaction_cases h
  · exact ⟨⟨_, rfl⟩, [], rfl⟩
  · exact ⟨⟨_, rfl⟩, [], rfl⟩
  · exact ⟨⟨_, rfl⟩, [], rfl⟩
  · exact ⟨⟨_, rfl⟩, [], rfl⟩
  · exact ⟨⟨_, rfl⟩, f.toList.drop 1, rfl⟩

/-- R16: the first step of a run that completes, and the run after it. -/
theorem State.after_succ_eq_some {k : Nat} {s u : State} {es : List Event} (h : State.after (k + 1) s = some (u, es)) :
    ∃ t es', step s = .next t ∧ State.after k t = some (u, es') ∧ es = t.event.toList ++ es' := by
  rw [State.after] at h
  split at h
  · next t hstep =>
    obtain ⟨⟨v, es'⟩, hafter, heq⟩ := Option.map_eq_some_iff.mp h
    obtain ⟨rfl, rfl⟩ := Prod.mk.inj heq
    exact ⟨t, es', hstep, hafter, rfl⟩
  · contradiction
  · contradiction

/-- R71: the operations of received bytes are no resets. -/
theorem ne_reset_of_mem_rxActions {a : HostAction} {bs : List Byte} (h : a ∈ rxActions bs) : a ≠ .reset := by
  obtain ⟨b, -, rfl⟩ := List.mem_map.mp h
  exact HostAction.noConfusion

/-- Settles O38, by induction on the number of steps: a step takes one action off the host's list, puts on it no reset,
and shows one event. -/
theorem runsShowOneEventAStep : Obligations.RunsShowOneEventAStep := by
  intro k
  induction k with
  | zero =>
    intro s u es _ _ hafter
    obtain ⟨-, rfl⟩ : s = u ∧ [] = es := by simpa [State.after] using hafter
    rfl
  | succ k ih =>
    intro s u es hreset hlen hafter
    obtain ⟨t, es', hstep, hafter', rfl⟩ := State.after_succ_eq_some hafter
    match hinput : s.input with
    | [] => simp [hinput] at hlen
    | .reset :: rest => simp [hinput] at hreset
    | .transact x :: rest =>
      rw [step_transact hinput] at hstep
      obtain ⟨⟨e, he⟩, bs, (hbs : t.input = rxActions bs ++ rest)⟩ := runTransaction_shows hstep
      have hlen' : k ≤ t.input.length := by
        rw [hinput, List.length_cons] at hlen
        rw [hbs, List.length_append]
        omega
      have hreset' : ∀ a ∈ t.input, a ≠ .reset := by
        intro a ha
        rw [hbs] at ha
        obtain hmem | hmem := List.mem_append.mp ha
        · exact ne_reset_of_mem_rxActions hmem
        · exact hreset a (hinput ▸ List.mem_cons_of_mem _ hmem)
      simp [he, ih t u es' hreset' hlen' hafter']

end Sys2Proof.Machine

/-! PROOFS, 10_state. What an instruction does in every state, with the operation it is (R26, R51 to R62); from this, who
writes the receiver and where the events come from. What a received byte does under the invariant of R24; from this, that
every step keeps the invariant, and that no step tells apart framers that differ only outside the candidate (R23). -/

namespace Sys2Proof.Machine

/-! ## The operation of an instruction -/

/-- R102, R85, R86, R90, R87, R89, log 6, log 7: which operation an instruction is, in every state alike. -/
theorem exec_forms (i : Instr) :
    (∃ e, (e = .none ∨ (∃ v, e = .chk v) ∨ ∃ v, e = .valid v) ∧ ∀ s, exec i s = .next (s.emit e)) ∨
    (i = .rxClear ∧ ∀ s, exec i s = .next s.clearReceiver) ∨
    (∃ c prm, (i = .txEncode c prm ∨ encode i = .send (encodeFrame c prm)) ∧
      ∀ s, exec i s = .next (s.sendCommand c prm)) ∨
    (∃ b, i = .rxByte b ∧ ∀ s, exec i s = .next (s.receiveByte b)) ∨
    ∃ f, encode i = .receive f ∧ ∀ s, exec i s = .next (s.receiveFrame f) := by
  cases i with
  | nop => exact .inl ⟨_, .inl rfl, fun _ => rfl⟩
  | checksum f => exact .inl ⟨_, .inr (.inl ⟨_, rfl⟩), fun _ => rfl⟩
  | validate f => exact .inl ⟨_, .inr (.inr ⟨_, rfl⟩), fun _ => rfl⟩
  | rxClear => exact .inr (.inl ⟨rfl, fun _ => rfl⟩)
  | txEncode c prm => exact .inr (.inr (.inl ⟨_, _, .inl rfl, fun _ => rfl⟩))
  | cmdR prm => exact .inr (.inr (.inl ⟨_, _, .inr rfl, fun _ => rfl⟩))
  | cmdV prm => exact .inr (.inr (.inl ⟨_, _, .inr rfl, fun _ => rfl⟩))
  | cmdF prm => exact .inr (.inr (.inl ⟨_, _, .inr rfl, fun _ => rfl⟩))
  | cmdP prm => exact .inr (.inr (.inl ⟨_, _, .inr rfl, fun _ => rfl⟩))
  | cmdI prm => exact .inr (.inr (.inl ⟨_, _, .inr rfl, fun _ => rfl⟩))
  | rxByte b => exact .inr (.inr (.inr (.inl ⟨_, rfl, fun _ => rfl⟩)))
  | rspR d k => exact .inr (.inr (.inr (.inr ⟨_, rfl, fun _ => rfl⟩)))
  | rspV d k => exact .inr (.inr (.inr (.inr ⟨_, rfl, fun _ => rfl⟩)))
  | rspS d k => exact .inr (.inr (.inr (.inr ⟨_, rfl, fun _ => rfl⟩)))

/-- R14, log 8: which operation a transaction is, or that it is refused, in every state alike. -/
theorem runTransaction_forms (x : Transaction) :
    (∃ e, ∀ s, runTransaction x s = .next (s.emit e)) ∨
    (∀ s, runTransaction x s = .next s.clearReceiver) ∨
    (∃ c prm, ∀ s, runTransaction x s = .next (s.sendCommand c prm)) ∨
    (∃ b, ∀ s, runTransaction x s = .next (s.receiveByte b)) ∨
    (∃ f, ∀ s, runTransaction x s = .next (s.receiveFrame f)) ∨
    ∃ r, ∀ s, runTransaction x s = .refused r := by
  cases hdecode : decode x with
  | instr i =>
    simp only [runTransaction_instr hdecode]
    obtain ⟨e, -, h⟩ | ⟨-, h⟩ | ⟨c, prm, -, h⟩ | ⟨b, -, h⟩ | ⟨f, -, h⟩ := exec_forms i
    · exact .inl ⟨e, h⟩
    · exact .inr (.inl h)
    · exact .inr (.inr (.inl ⟨c, prm, h⟩))
    · exact .inr (.inr (.inr (.inl ⟨b, h⟩)))
    · exact .inr (.inr (.inr (.inr (.inl ⟨f, h⟩))))
  | rejected e =>
    simp only [runTransaction_rejected hdecode]
    cases e with
    | illegalWord w => exact .inl ⟨_, fun _ => rfl⟩
    | notAResponseFrame f => exact .inr (.inr (.inr (.inr (.inl ⟨_, fun _ => rfl⟩))))
    | notACommandFrame f => exact .inr (.inr (.inr (.inr (.inr ⟨_, fun _ => rfl⟩))))

/-- R26: a received byte shows no TXFRAME. -/
theorem Framer.rxByte_event_ne_txFrame (fr : Framer) (b : Byte) (f : Frame) : (fr.rxByte b).2 ≠ .txFrame f := by
  have judged (g : Frame) : judge g ≠ .txFrame f := by
    obtain ⟨-, h⟩ | ⟨-, -, h⟩ | ⟨-, -, h⟩ := judge_cases g <;> simp [h]
  obtain ⟨-, -, h⟩ | ⟨-, -, h⟩ | ⟨-, -, h⟩ | ⟨-, -, h⟩ | ⟨-, _, h⟩ | ⟨-, -, h⟩ := fr.rxByte_cases b <;>
    simp [h, judged]

/-! ## Received bytes and the invariant -/

/-- R24: a receiver in WaitLen with p = 0 meets the invariant, whatever its buffer holds. -/
theorem Framer.inv_of_waitLen {fr : Framer} (hstate : fr.rxState = .waitLen) (hp : fr.p = 0) : fr.Inv := by
  simp [Framer.Inv, hstate, hp]

/-- R24, R34. -/
theorem Framer.inv_reset : Framer.reset.Inv := Framer.inv_of_waitLen rfl rfl

/-- R24, R87, R90, R111. -/
theorem Framer.inv_clear (fr : Framer) : fr.clear.Inv := Framer.inv_of_waitLen rfl rfl

/-- R24, R89: a received byte keeps the invariant. -/
theorem Framer.Inv.rxByte {fr : Framer} (hinv : fr.Inv) (b : Byte) : (fr.rxByte b).1.Inv := by
  obtain ⟨-, hcode, hdata⟩ := hinv
  obtain ⟨-, hb, h⟩ | ⟨-, -, h⟩ | ⟨hstate, hb, h⟩ | ⟨-, -, h⟩ | ⟨hstate, hlt, h⟩ | ⟨-, -, h⟩ :=
    fr.rxByte_cases b <;> rw [h]
  · simp [Framer.Inv, hb]
  · exact fr.inv_clear
  · obtain ⟨-, hmarker⟩ := hcode hstate
    simp [Framer.Inv, hb, hmarker]
  · exact fr.inv_clear
  · obtain ⟨hp, hmarker, hresp⟩ := hdata hstate
    have h0 : fr.p.val ≠ 0 := by omega
    have h1 : fr.p.val ≠ 1 := by omega
    have hp' : 2 ≤ fr.p.val + 1 := by omega
    simp [Framer.Inv, Vector.getElem_set_ne, h0, h1, hmarker, hresp, hp']
  · exact Framer.inv_of_waitLen rfl rfl

/-- R22, R24: under the invariant a received byte leaves the buffer or is stored at the counter. -/
theorem Framer.Inv.rxBuf_rxByte {fr : Framer} (hinv : fr.Inv) (b : Byte) :
    (fr.rxByte b).1.rxBuf = fr.rxBuf ∨ (fr.rxByte b).1.rxBuf = fr.rxBuf.set fr.p b := by
  obtain ⟨hlen, hcode, -⟩ := hinv
  obtain ⟨hstate, -, h⟩ | ⟨-, -, h⟩ | ⟨hstate, -, h⟩ | ⟨-, -, h⟩ | ⟨-, _, h⟩ | ⟨-, hp, h⟩ :=
    fr.rxByte_cases b <;> rw [h]
  · exact .inr (by simp [hlen hstate])
  · exact .inl rfl
  · exact .inr (by simp [(hcode hstate).1])
  · exact .inl rfl
  · exact .inr rfl
  · exact .inr (by simp [hp])

/-! ## Framers that differ only outside the candidate -/

/-- R23: cleared receivers have an empty candidate, so any two of them agree. -/
theorem Framer.agree_clear (x y : Framer) : x.clear.Agree y.clear :=
  ⟨rfl, rfl, fun i hi => absurd hi (Fin.not_lt_zero i)⟩

theorem Framer.Agree.refl (fr : Framer) : fr.Agree fr := ⟨rfl, rfl, fun _ _ => rfl⟩

/-- R23: a byte stored at the counter extends the candidate, on which the buffers agree. -/
theorem Framer.Agree.getElem_set_p {x y : Framer} (h : x.Agree y) (b : Byte) {i : Nat} (hi : i < 16)
    (hle : i ≤ x.p.val) : (x.rxBuf.set x.p b)[i] = (y.rxBuf.set x.p b)[i] := by
  obtain ⟨-, -, hbuf⟩ := h
  by_cases hip : x.p.val = i
  · simp [hip]
  · have hbyte : x.rxBuf[i] = y.rxBuf[i] := hbuf ⟨i, hi⟩ (Fin.lt_def.mpr (lt_of_le_of_ne hle (Ne.symm hip)))
    simp [Vector.getElem_set_ne, hip, hbyte]

/-- R23, R89: a received byte shows the same event on both framers and leaves them agreeing; at the sixteenth byte the
candidate is the whole buffer, so the same frame is judged. -/
theorem Framer.Agree.rxByte {x y : Framer} (hinv : x.Inv) (hagree : x.Agree y) (b : Byte) :
    (x.rxByte b).2 = (y.rxByte b).2 ∧ (x.rxByte b).1.Agree (y.rxByte b).1 := by
  obtain ⟨hlen, hcode, -⟩ := hinv
  have extended := @Framer.Agree.getElem_set_p x y hagree b
  obtain ⟨hstates, hps, -⟩ := hagree
  obtain ⟨hstate, hb, h⟩ | ⟨hstate, hb, h⟩ | ⟨hstate, hb, h⟩ | ⟨hstate, hb, h⟩ | ⟨hstate, hlt, h⟩ |
    ⟨hstate, hp, h⟩ := x.rxByte_cases b <;> rw [h]
  · rw [Framer.rxByte_waitLen_marker (hstates ▸ hstate) hb]
    simp only [hlen hstate] at extended
    exact ⟨rfl, rfl, rfl, fun i (hi : i < 1) => extended i.isLt (Nat.le_of_lt_succ hi)⟩
  · rw [Framer.rxByte_waitLen_other (hstates ▸ hstate) hb]
    exact ⟨rfl, Framer.agree_clear x y⟩
  · rw [Framer.rxByte_waitCode_code (hstates ▸ hstate) hb]
    simp only [(hcode hstate).1] at extended
    exact ⟨rfl, rfl, rfl, fun i (hi : i < 2) => extended i.isLt (Nat.le_of_lt_succ hi)⟩
  · rw [Framer.rxByte_waitCode_other (hstates ▸ hstate) hb]
    exact ⟨rfl, Framer.agree_clear x y⟩
  · rw [Framer.rxByte_data_store (hstates ▸ hstate) (hps ▸ hlt)]
    refine ⟨rfl, rfl, by simp [hps], fun i hi => ?_⟩
    simp only [← hps]
    exact extended i.isLt (Nat.le_of_lt_succ hi)
  · rw [Framer.rxByte_data_complete (hstates ▸ hstate) (hps ▸ hp)]
    simp only [hp] at extended
    have hbuf : x.rxBuf.set 15 b = y.rxBuf.set 15 b :=
      Vector.ext fun i hi => extended hi (Nat.le_of_lt_succ hi)
    rw [hbuf]
    exact ⟨rfl, Framer.Agree.refl _⟩

/-- R23, R28: framers that agree are observed alike. -/
theorem State.observe_congr {s t : State} (h : s.framer.Agree t.framer) : s.observe = t.observe := by
  obtain ⟨hstates, hps, -⟩ := h
  simp [State.observe, hstates, hps]

/-- R23: a transaction shows the same event on states whose framers agree, and leaves them agreeing. -/
theorem runTransaction_agree {s t s' : State} (x : Transaction) (hinv : s.Inv) (hagree : s.framer.Agree t.framer)
    (hinput : s.input = t.input) (hrun : runTransaction x s = .next s') :
    ∃ t', runTransaction x t = .next t' ∧ t'.event = s'.event ∧ t'.input = s'.input ∧
      s'.framer.Agree t'.framer := by
  obtain ⟨e, h⟩ | h | ⟨c, prm, h⟩ | ⟨b, h⟩ | ⟨f, h⟩ | ⟨r, h⟩ := runTransaction_forms x <;>
    rw [h] at hrun <;> cases hrun
  · exact ⟨_, h t, rfl, hinput.symm, hagree⟩
  · exact ⟨_, h t, rfl, hinput.symm, Framer.agree_clear _ _⟩
  · exact ⟨_, h t, rfl, hinput.symm, Framer.agree_clear _ _⟩
  · obtain ⟨hevent, hagree'⟩ := hagree.rxByte hinv b
    exact ⟨_, h t, by simp [hevent], hinput.symm, hagree'⟩
  · obtain ⟨hevent, hagree'⟩ := hagree.rxByte hinv f[0]
    exact ⟨_, h t, by simp [hevent], by simp [hinput], hagree'⟩

/-- R23: so does a step, whatever the host does. -/
theorem step_agree {s t s' : State} (hinv : s.Inv) (hagree : s.framer.Agree t.framer)
    (hinput : s.input = t.input) (hstep : step s = .next s') :
    ∃ t', step t = .next t' ∧ t'.event = s'.event ∧ t'.input = s'.input ∧ s'.framer.Agree t'.framer := by
  match hs : s.input with
  | [] =>
    rw [step_nil hs] at hstep
    cases hstep
    exact ⟨_, step_nil (hinput ▸ hs), rfl, hinput.symm, hagree⟩
  | .reset :: rest =>
    rw [step_reset hs] at hstep
    cases hstep
    exact ⟨_, step_reset (hinput ▸ hs), rfl, rfl, Framer.Agree.refl _⟩
  | .transact x :: rest =>
    rw [step_transact hs] at hstep
    rw [step_transact (hinput ▸ hs)]
    exact runTransaction_agree (s := { s with input := rest }) (t := { t with input := rest }) x hinv hagree rfl hstep

/-! ## The framer after a step -/

/-- R14, R120: everything a step can do to the framer. -/
theorem step_framer_cases {s t : State} (h : step s = .next t) :
    t.framer = s.framer ∨ t.framer = Framer.reset ∨ t.framer = s.framer.clear ∨
      ∃ b, t.framer = (s.framer.rxByte b).1 := by
  match hinput : s.input with
  | [] =>
    rw [step_nil hinput] at h
    cases h
    exact .inl rfl
  | .reset :: rest =>
    rw [step_reset hinput] at h
    cases h
    exact .inr (.inl rfl)
  | .transact x :: rest =>
    rw [step_transact hinput] at h
    obtain ⟨e, rfl⟩ | rfl | ⟨c, prm, rfl⟩ | ⟨b, rfl⟩ | ⟨f, rfl⟩ := runTransaction_cases h
    · exact .inl rfl
    · exact .inr (.inr (.inl rfl))
    · exact .inr (.inr (.inl rfl))
    · exact .inr (.inr (.inr ⟨b, rfl⟩))
    · exact .inr (.inr (.inr ⟨f[0], rfl⟩))

/-! ## The statements -/

/-- Settles O40: a step leaves the framer, resets it, clears it or feeds it one byte, and each keeps the invariant. -/
theorem everyStepKeepsTheReceiverInvariant : Obligations.EveryStepKeepsTheReceiverInvariant := by
  intro s t hinv hstep
  show t.framer.Inv
  obtain h | h | h | ⟨b, h⟩ := step_framer_cases hstep <;> rw [h]
  · exact hinv
  · exact Framer.inv_reset
  · exact Framer.inv_clear _
  · exact hinv.rxByte b

/-- Settles O10: the buffer is left, or set at p, which is 0 in WaitLen and 1 in WaitCode. -/
theorem rxByteWritesOnlyTheByteAtTheCounter : Obligations.RxByteWritesOnlyTheByteAtTheCounter := by
  intro b s t hinv hexec
  cases hexec
  obtain h | h := hinv.rxBuf_rxByte b <;> rw [State.receiveByte_framer, h]
  · exact ⟨fun _ _ => rfl, .inr rfl⟩
  · refine ⟨fun i hi => ?_, .inl (by simp)⟩
    have hne : s.framer.p.val ≠ i.val := fun heq => hi (Fin.ext heq.symm)
    simp [Vector.getElem_set_ne, hne]

/-- Settles O42, operation by operation. -/
theorem eventsComeFromTheirOperations : Obligations.EventsComeFromTheirOperations := by
  intro i s t hexec
  obtain ⟨e, he, h⟩ | ⟨-, h⟩ | ⟨c, prm, hi, h⟩ | ⟨b, hi, h⟩ | ⟨f, hi, h⟩ := exec_forms i <;>
    rw [h] at hexec <;> cases hexec
  · obtain rfl | ⟨v, rfl⟩ | ⟨v, rfl⟩ := he <;> simp
  · simp
  · refine ⟨by simp, by simp, fun f hf => ?_⟩
    obtain rfl : encodeFrame c prm = f := by simpa using hf
    exact hi.imp (fun hi => ⟨c, prm, hi, rfl⟩) id
  · exact ⟨fun _ _ => .inl ⟨b, hi⟩, fun _ _ => .inl ⟨b, hi⟩,
      fun f hf => absurd (Option.some.inj hf) (Framer.rxByte_event_ne_txFrame _ _ f)⟩
  · exact ⟨fun _ _ => .inr ⟨f, hi⟩, fun _ _ => .inr ⟨f, hi⟩,
      fun g hg => absurd (Option.some.inj hg) (Framer.rxByte_event_ne_txFrame _ _ g)⟩

/-- Settles O44: the invariant makes the counter the place of each store, so a step reads only what agrees. -/
theorem bytesOutsideTheCandidateAreNeverRead : Obligations.BytesOutsideTheCandidateAreNeverRead := by
  intro s t s' hinv hagree hinput hstep
  obtain ⟨t', hstep', hevent, hinput', hagree'⟩ := step_agree hinv hagree hinput hstep
  exact ⟨t', hstep', hevent, (State.observe_congr hagree').symm, hinput', hagree'⟩

/-- Settles O28. -/
theorem observationPortShowsStateAndCounter : Obligations.ObservationPortShowsStateAndCounter := by
  intro s
  constructor
  · simp only [State.observe]
    cases s.framer.rxState <;> rfl
  · simp [State.observe]

/-- Settles O36: a transaction that is not refused shows an event, and the port holds one. -/
theorem eachOperationEmitsOneEvent : Obligations.EachOperationEmitsOneEvent := by
  intro s t x rest hinput hstep
  rw [step_transact hinput] at hstep
  obtain ⟨⟨e, he⟩, -⟩ := runTransaction_shows hstep
  exact ⟨e, he, fun e' he' => Option.some.inj (he'.symm.trans he)⟩

/-- Settles O39. -/
theorem receiverInvariantHoldsAtReset : Obligations.ReceiverInvariantHoldsAtReset := Framer.inv_reset

/-- Settles O41: an operation that reports keeps the framer, and a clear keeps its buffer. -/
theorem onlyReceiverOperationsWriteTheReceiver : Obligations.OnlyReceiverOperationsWriteTheReceiver := by
  intro i s t hexec
  obtain ⟨e, -, h⟩ | ⟨hi, h⟩ | ⟨c, prm, hi, h⟩ | ⟨b, hi, h⟩ | ⟨f, hi, h⟩ := exec_forms i <;>
    rw [h] at hexec <;> cases hexec
  · exact ⟨fun hne => absurd rfl hne, fun hne => absurd rfl hne⟩
  · exact ⟨fun _ => .inl hi, fun hne => absurd rfl hne⟩
  · refine ⟨fun _ => ?_, fun hne => absurd rfl hne⟩
    obtain hi | hi := hi
    · exact .inr (.inr (.inl ⟨c, prm, hi⟩))
    · exact .inr (.inr (.inr (.inl ⟨_, hi⟩)))
  · exact ⟨fun _ => .inr (.inl ⟨b, hi⟩), fun _ => .inl ⟨b, hi⟩⟩
  · exact ⟨fun _ => .inr (.inr (.inr (.inr ⟨f, hi⟩))), fun _ => .inr ⟨f, hi⟩⟩

end Sys2Proof.Machine

/-! PROOFS, 20_memory. The bytes of a 16-bit field and of a 128-bit bus, bit by bit; from this, that packing a frame and
unpacking a bus are inverse. -/

namespace Sys2Proof

/-! ## Little-endian fields -/

/-- R37: the pair as a number; both bytes fit, so nothing is truncated. -/
theorem toNat_le16 (lo hi : Byte) : (le16 lo hi).toNat = lo.toNat + 256 * hi.toNat := by
  have hfits : lo.toNat + 256 * hi.toNat < 2 ^ 16 := by omega
  rw [le16, BitVec.toNat_ofNat, Nat.mod_eq_of_lt hfits]

/-- R40: `param[7:0]` as a number. -/
theorem toNat_loByte (prm : Param) : (loByte prm).toNat = prm.toNat % 256 := by
  simp [loByte, BitVec.extractLsb'_toNat]

/-- R40: `param[15:8]` as a number. -/
theorem toNat_hiByte (prm : Param) : (hiByte prm).toNat = prm.toNat / 256 := by
  have hfits : prm.toNat / 256 < 2 ^ 8 := by omega
  rw [hiByte, BitVec.extractLsb'_toNat, Nat.shiftRight_eq_div_pow, Nat.mod_eq_of_lt hfits]

/-! ## The bytes of a bus -/

/-- R39: unpacking takes byte i from bits [8i+7 : 8i]. -/
@[simp] theorem getElem_frameOfBus (w : Bus) (i : Nat) (hi : i < 16) :
    (frameOfBus w)[i] = w.extractLsb' (8 * i) 8 := by
  simp [frameOfBus]

/-- Bit j of byte i is bit 8i+j of the number whose base-256 digits are the bytes. -/
theorem testBit_natOfBytes (bs : List Byte) (i : Nat) (hi : i < bs.length) (j : Nat) (hj : j < 8) :
    (natOfBytes bs).testBit (8 * i + j) = bs[i].getLsbD j := by
  induction bs generalizing i with
  | nil => exact absurd hi (Nat.not_lt_zero i)
  | cons b bs ih =>
    have hsplit := Nat.testBit_two_pow_mul_add (natOfBytes bs) b.isLt (8 * i + j)
    rw [natOfBytes, Nat.add_comm, hsplit]
    cases i with
    | zero => simp [hj, BitVec.getLsbD]
    | succ i =>
      have hrest : 8 * (i + 1) + j - 8 = 8 * i + j := by omega
      rw [if_neg (by omega), hrest, ih i (by simpa using hi), List.getElem_cons_succ]

/-- R39: packing puts byte i at bits [8i+7 : 8i]. -/
@[simp] theorem extractLsb'_busOfFrame (f : Frame) (i : Nat) (hi : i < 16) :
    (busOfFrame f).extractLsb' (8 * i) 8 = f[i] := by
  apply BitVec.eq_of_getLsbD_eq
  intro j hj
  have hbit := testBit_natOfBytes f.toList i (by simpa using hi) j hj
  have hwidth : 8 * i + j < 128 := by omega
  rw [BitVec.getLsbD_extractLsb', busOfFrame, BitVec.getLsbD_ofNat]
  simpa [hj, hwidth] using hbit

/-- R39: the sixteen bytes make up the whole bus, as bit k is bit k % 8 of byte k / 8. -/
theorem bus_eq_of_bytes_eq {v w : Bus}
    (h : ∀ i < 16, v.extractLsb' (8 * i) 8 = w.extractLsb' (8 * i) 8) : v = w := by
  apply BitVec.eq_of_getLsbD_eq
  intro k hk
  have hbit := congrArg (·.getLsbD (k % 8)) (h (k / 8) (by omega))
  simpa [Nat.mod_lt, Nat.div_add_mod] using hbit

@[simp] theorem frameOfBus_busOfFrame (f : Frame) : frameOfBus (busOfFrame f) = f := by
  ext i hi : 1
  rw [getElem_frameOfBus, extractLsb'_busOfFrame f i hi]

@[simp] theorem busOfFrame_frameOfBus (w : Bus) : busOfFrame (frameOfBus w) = w := by
  apply bus_eq_of_bytes_eq
  intro i hi
  rw [extractLsb'_busOfFrame _ i hi, getElem_frameOfBus]

/-! ## The operations that read the operand bus -/

/-- R53, R55: CHECKSUM's word takes the frame on the bus. -/
@[simp] theorem decode_checksumWord (w : Bus) :
    decode (.op 0x04000000#32 w) = .instr (.checksum (frameOfBus w)) := rfl

/-- R53, R55: VALIDATE's word takes the frame on the bus. -/
@[simp] theorem decode_validateWord (w : Bus) :
    decode (.op 0x05000000#32 w) = .instr (.validate (frameOfBus w)) := rfl

end Sys2Proof

namespace Sys2Proof.Machine

/-- Settles O26: the events carry the packed frame, and the two operations take the unpacked bus. -/
theorem busCarriesBytesInOffsetOrder : Obligations.BusCarriesBytesInOffsetOrder := by
  constructor
  · intro f i
    have hbyte : (busOfFrame f).extractLsb' (8 * i.val) 8 = f[i] := extractLsb'_busOfFrame f i i.isLt
    exact ⟨hbyte, hbyte⟩
  · intro w
    refine ⟨frameOfBus w, frameOfBus w, decode_checksumWord w, decode_validateWord w, fun i => ?_⟩
    have hbyte : (frameOfBus w)[i] = w.extractLsb' (8 * i.val) 8 := getElem_frameOfBus w i i.isLt
    exact ⟨hbyte, hbyte⟩

/-- Settles O27. -/
theorem busPackingIsInvertible : Obligations.BusPackingIsInvertible :=
  ⟨frameOfBus_busOfFrame, busOfFrame_frameOfBus⟩

/-- Settles O25. -/
theorem fieldsAreLittleEndian : Obligations.FieldsAreLittleEndian :=
  ⟨toNat_le16, fun prm => ⟨toNat_loByte prm, toNat_hiByte prm⟩⟩

end Sys2Proof.Machine

/-! PROOFS, 30_encoding. Decoding and encoding, the direction of each row said once: the six operation words by their
ranges and fields, the frames to be sent and the delivered frames by their rebuilding. Then what a delivered frame does:
sixteen RX_BYTE steps (R71), which from WaitLen end in the verdict on the frame. Last the event port (R69) and the
assembler (R70, R71). -/

namespace Sys2Proof

/-! ## Operation words -/

/-- R52, R55: a word with no RES bit set is made up of its fields. -/
theorem opWord_fields {w : OpWord} {opc : BitVec 3} (h : w.toNat / 16777216 = opc.toNat) :
    opWord opc (opCode w) (opParam w) = w := by
  apply BitVec.eq_of_toNat_eq
  rw [toNat_opWord, toNat_opCode, toNat_opParam]
  omega

/-- R53, R55: RX_BYTE's word is made up of its byte alone. -/
theorem encode_rxByte_opByte {w : OpWord} (h : w.toNat / 256 = 65536) : encode (.rxByte (opByte w)) = .op w 0 := by
  have hcode : opCode w = 0 := BitVec.eq_of_toNat_eq (by simp [toNat_opCode]; omega)
  have hparam : (0#8 ++ opByte w : Param) = opParam w := by
    have happend : (0#8 ++ opByte w : Param).toNat = (opByte w).toNat :=
      (BitVec.toNat_append 0#8 (opByte w)).trans (by simp)
    apply BitVec.eq_of_toNat_eq
    rw [happend, toNat_opByte, toNat_opParam]
    omega
  rw [encode, hparam, ← hcode, opWord_fields (by simp; omega)]

theorem encode_checksum (f : Frame) : encode (.checksum f) = .op 0x04000000#32 (busOfFrame f) := rfl

theorem encode_validate (f : Frame) : encode (.validate f) = .op 0x05000000#32 (busOfFrame f) := rfl

/-- R51 to R55: an operation word that decodes is encoded again as the word; only CHECKSUM and VALIDATE keep the bus. -/
theorem encode_of_decode_op {w : OpWord} {bus : Bus} {i : Instr} (h : decode (.op w bus) = .instr i) :
    encode i = .op w (if w = 0x04000000#32 ∨ w = 0x05000000#32 then bus else 0) := by
  rw [decode, decodeOp_by_range] at h
  split_ifs at h with hnop hrx hclr htx hchk hval <;> obtain rfl := Decoded.instr.inj h
  · obtain rfl : w = 0x00000000#32 := BitVec.eq_of_toNat_eq hnop
    rfl
  · rw [encode_rxByte_opByte hrx, if_neg]
    rintro (rfl | rfl) <;> contradiction
  · obtain rfl : w = 0x02000000#32 := BitVec.eq_of_toNat_eq hclr
    rfl
  · rw [encode, opWord_fields htx, if_neg]
    rintro (rfl | rfl) <;> contradiction
  · obtain rfl : w = 0x04000000#32 := BitVec.eq_of_toNat_eq hchk
    simp [encode_checksum]
  · obtain rfl : w = 0x05000000#32 := BitVec.eq_of_toNat_eq hval
    simp [encode_validate]

/-- R54: no word matches two rows whose matches differ under both masks. -/
theorem not_matches_both {w mtch mask mtch' mask' : OpWord} (h : mtch &&& mask' ≠ mtch' &&& mask) :
    ¬ (w &&& mask = mtch ∧ w &&& mask' = mtch') := by
  rintro ⟨rfl, rfl⟩
  exact h (by rw [BitVec.and_assoc, BitVec.and_comm mask, ← BitVec.and_assoc])

/-- R56: the ILLEGAL words are those in no row's range. -/
theorem decode_op_illegal_iff (w : OpWord) (bus : Bus) :
    decode (.op w bus) = .rejected (.illegalWord w) ↔
      w.toNat ≠ 0 ∧ w.toNat / 256 ≠ 65536 ∧ w.toNat ≠ 33554432 ∧ w.toNat / 16777216 ≠ 3 ∧
        w.toNat ≠ 67108864 ∧ w.toNat ≠ 83886080 := by
  rw [decode, decodeOp_by_range]
  split_ifs <;> simp_all

/-- R52: the value of a field, as digits of the word's number. -/
theorem extractLsb'_eq_iff {w : OpWord} {lo n : Nat} {v : BitVec n} :
    w.extractLsb' lo n = v ↔ w.toNat / 2 ^ lo % 2 ^ n = v.toNat := by
  rw [← BitVec.toNat_inj, BitVec.extractLsb'_toNat, Nat.shiftRight_eq_div_pow]

/-! ## Frames to be sent -/

/-- R59, R61: the serializer's frame is read back as the row of its code. -/
@[simp] theorem decode_send_encodeFrame (c : Byte) (prm : Param) :
    decode (.send (encodeFrame c prm)) = .instr (commandInstr c prm) := by
  simp [decode, decodeCommand]

/-- R59: a frame to be sent that decodes is the serializer's frame for its own code and parameter. -/
theorem decode_send_eq_instr {f : Frame} {i : Instr} (h : decode (.send f) = .instr i) :
    f = encodeFrame f[1] (le16 f[2] f[3]) ∧ i = commandInstr f[1] (le16 f[2] f[3]) := by
  simp only [decode, decodeCommand] at h
  split_ifs at h with hf
  exact ⟨hf, (Decoded.instr.inj h).symm⟩

/-- R61: the row of a code the host uses is encoded as the serializer's frame. -/
theorem encode_commandInstr {c : Byte} (hc : c ∈ cmdCodes) (prm : Param) :
    encode (commandInstr c prm) = .send (encodeFrame c prm) := by
  simp only [cmdCodes, List.mem_cons, List.not_mem_nil, or_false] at hc
  obtain rfl | rfl | rfl | rfl | rfl := hc <;> rfl

/-- R80, R82: the checksum the serializer computes. -/
theorem checksum_commandLayout (c k : Byte) (prm : Param) :
    checksum (commandLayout c prm k) = c + loByte prm + hiByte prm := by
  simp [checksum, checksumSum, commandLayout, BitVec.ofNat_add]

/-- R59, R82: the serializer's frame, byte by byte. -/
theorem encodeFrame_eq (c : Byte) (prm : Param) :
    encodeFrame c prm = #v[0x0F#8, c, prm.extractLsb' 0 8, prm.extractLsb' 8 8, 0, 0, 0, 0, 0, 0, 0, 0, 0, 0,
      c + prm.extractLsb' 0 8 + prm.extractLsb' 8 8, 0x00#8] := by
  rw [encodeFrame, checksum_commandLayout]
  rfl

/-! ## The bytes of a frame in wire order -/

/-- R38: the bytes from offset `n` on. -/
theorem drop_toList_eq_cons (f : Frame) {n : Nat} (hn : n < 16) :
    f.toList.drop n = f[n] :: f.toList.drop (n + 1) := by
  rw [List.drop_eq_getElem_cons (by simpa using hn), Vector.getElem_toList]

theorem toList_eq_cons_drop (f : Frame) : f.toList = f[0] :: f.toList.drop 1 :=
  drop_toList_eq_cons f (n := 0) (by decide)

/-- R58, R60: the bytes of a response frame in offset order. -/
theorem toList_responseFrame (c : Byte) (d : Payload) (k : Byte) :
    (responseFrame c d k).toList = marker :: (c :: d.toList ++ [k, terminator]) := by
  apply List.ext_getElem
  · simp
  · intro i hi _
    have hi16 : i < 16 := by simpa using hi
    interval_cases i <;> simp [responseFrame]

end Sys2Proof

namespace Sys2Proof.Machine

/-! ## Decoding and encoding -/

/-- Settles O4, row by row: a word by its fields, a frame by the row of its code. -/
theorem decodeOfEncodeIsIdentity : Obligations.DecodeOfEncodeIsIdentity := by
  intro i
  cases i with
  | nop => rfl
  | rxByte b => exact decode_encode_rxByte b
  | rxClear => rfl
  | txEncode c prm => exact decode_encode_txEncode c prm
  | checksum f => rw [encode_checksum, decode_checksumWord, frameOfBus_busOfFrame]
  | validate f => rw [encode_validate, decode_validateWord, frameOfBus_busOfFrame]
  | cmdR prm => exact decode_send_encodeFrame codeR prm
  | cmdV prm => exact decode_send_encodeFrame codeV prm
  | cmdF prm => exact decode_send_encodeFrame codeF prm
  | cmdP prm => exact decode_send_encodeFrame codeP prm
  | cmdI prm => exact decode_send_encodeFrame codeI prm
  | rspR d k => simp [encode, decode, decodeResponse]
  | rspV d k => simp [encode, decode, decodeResponse, codeR, codeV]
  | rspS d k => simp [encode, decode, decodeResponse, codeR, codeV, codeS]

/-- Settles O5: words by their fields, and each direction of a frame by its rebuilding. -/
theorem encodeOfDecodeIsIdentity : Obligations.EncodeOfDecodeIsIdentity := by
  refine ⟨fun w bus i h => encode_of_decode_op h, fun f i h => ?_, fun f i hcode h => ?_⟩
  · obtain ⟨d, k, rfl, h'⟩ | ⟨d, k, rfl, h'⟩ | ⟨d, k, rfl, h'⟩ | h' := decode_receive_cases f <;>
      rw [h'] at h <;> cases h <;> rfl
  · obtain ⟨hf, rfl⟩ := decode_send_eq_instr h
    rw [encode_commandInstr hcode, ← hf]

/-- Settles O6: the rows are told apart under both masks, so the decoder's earlier tests hide no later row. -/
theorem decodingFollowsMatchAndMask : Obligations.DecodingFollowsMatchAndMask := by
  intro w bus
  refine ⟨List.Pairwise.imp not_matches_both (by decide), ?_, ?_, ?_, ?_, ?_, ?_, ?_⟩
  · rw [and_wordMask]
    rintro rfl
    rfl
  · rw [matches_rxByte_iff]
    intro h
    rw [decode, decodeOp_by_range, if_neg (by omega), if_pos h, opByte]
  · rw [and_wordMask]
    rintro rfl
    rfl
  · rw [matches_txEncode_iff]
    intro h
    rw [decode, decodeOp_by_range, if_neg (by omega), if_neg (by omega), if_neg (by omega), if_pos h, opCode, opParam]
  · rw [and_wordMask]
    rintro rfl
    rfl
  · rw [and_wordMask]
    rintro rfl
    rfl
  · rintro ⟨hnop, hrx, hclr, htx, hchk, hval⟩
    rw [decode, decodeOp, if_neg hnop, if_neg hrx, if_neg hclr, if_neg htx, if_neg hchk, if_neg hval]

/-- Settles O7: both sides are conditions on the digits of the word's number, the fields on one, the rows' ranges on the
other. -/
theorem illegalWordsAreReportedAndChangeNothing : Obligations.IllegalWordsAreReportedAndChangeNothing := by
  intro w bus
  refine ⟨?_, fun s rest hinput hdecode => ?_⟩
  · have hw := w.isLt
    rw [decode_op_illegal_iff]
    simp only [ne_eq, extractLsb'_eq_iff, BitVec.ofNat_eq_ofNat, BitVec.toNat_ofNat, Nat.reducePow, Nat.reduceMod]
    omega
  · rw [step_transact hinput, runTransaction_rejected hdecode]
    rfl

/-! ## Frames of the table -/

/-- Settles O15: each command row is the serializer's frame of its code. -/
theorem commandFramesAreSerialized : Obligations.CommandFramesAreSerialized := by
  intro prm s i c h
  refine ⟨encodeFrame c prm, ?_, encodeFrame_eq c prm, ?_⟩ <;>
    obtain ⟨rfl, rfl⟩ | ⟨rfl, rfl⟩ | ⟨rfl, rfl⟩ | ⟨rfl, rfl⟩ | ⟨rfl, rfl⟩ := h <;> rfl

/-- R60, R62: a response row carries a code the receiver accepts and runs as the delivery of its frame. -/
theorem exec_responseRow {i : Instr} {c : Byte} {d : Payload} {k : Byte}
    (h : (i = .rspR d k ∧ c = 0x72#8) ∨ (i = .rspV d k ∧ c = 0x76#8) ∨ (i = .rspS d k ∧ c = 0x73#8)) (s : State) :
    c ∈ respCodes ∧ exec i s = .next (s.receiveFrame (responseFrame c d k)) := by
  obtain ⟨rfl, rfl⟩ | ⟨rfl, rfl⟩ | ⟨rfl, rfl⟩ := h <;> exact ⟨by decide, rfl⟩

/-- Settles O16. -/
theorem responseFramesStartWithTheirMarker : Obligations.ResponseFramesStartWithTheirMarker := by
  intro d k s i c h
  obtain ⟨-, hexec⟩ := exec_responseRow h s
  rw [hexec, State.receiveFrame, toList_responseFrame]
  rfl

/-! ## Received bytes as steps -/

/-- R14: the step on the first of some received bytes. -/
theorem step_rxActions_cons {s : State} {b : Byte} {bs : List Byte} {rest : List HostAction}
    (h : s.input = rxActions (b :: bs) ++ rest) :
    step s = .next (State.receiveByte { s with input := rxActions bs ++ rest } b) :=
  (step_transact h).trans (runTransaction_encode_rxByte b _)

/-- R93: the steps on some received bytes are the byte stream, whatever the host does afterwards. -/
theorem State.after_rxActions (bs : List Byte) {s : State} {rest : List HostAction}
    (h : s.input = rxActions bs ++ rest) :
    ∃ t, State.after bs.length s = some (t, (s.framer.rxBytes bs).2) ∧ t.framer = (s.framer.rxBytes bs).1 ∧
      t.input = rest := by
  induction bs generalizing s with
  | nil => exact ⟨s, rfl, rfl, h⟩
  | cons b bs ih =>
    obtain ⟨t, hafter, hframer, hinput⟩ :=
      ih (s := State.receiveByte { s with input := rxActions bs ++ rest } b) rfl
    exact ⟨t, by simp [State.after, step_rxActions_cons h, hafter], hframer, hinput⟩

/-- R16: a run depends on its start only through the first step. -/
theorem State.after_succ_congr {s t : State} (h : step s = step t) (k : Nat) :
    State.after (k + 1) s = State.after (k + 1) t := by
  simp only [State.after, h]

/-- R71, log 6: the step that meets a delivered frame is the step on its first byte. -/
theorem step_receive {s : State} {f : Frame} {rest : List HostAction}
    (h : s.input = .transact (.receive f) :: rest) :
    step s = step { s with input := rxActions f.toList ++ rest } := by
  rw [step_transact h, toList_eq_cons_drop f, step_rxActions_cons rfl, runTransaction_receive]
  rfl

/-- Settles O47. -/
theorem receivedFrameIsSixteenByteSteps : Obligations.ReceivedFrameIsSixteenByteSteps := by
  intro s f rest hinput
  refine ⟨step_receive hinput, ?_⟩
  rw [State.after_succ_congr (step_receive hinput)]
  simpa using State.after_rxActions f.toList (s := { s with input := rxActions f.toList ++ rest }) rfl

/-! ## A frame received from WaitLen -/

/-- R22, R23: the buffer holds the first `n` bytes of `f`. -/
def HoldsPrefix (buf f : Frame) (n : Nat) : Prop := ∀ (i : Nat) (_ : i < 16), i < n → buf[i] = f[i]

theorem HoldsPrefix.zero (buf f : Frame) : HoldsPrefix buf f 0 := fun i _ hi => absurd hi (Nat.not_lt_zero i)

/-- R22: storing the next byte of the frame extends what the buffer holds of it. -/
theorem HoldsPrefix.set {buf f : Frame} {n : Nat} (h : HoldsPrefix buf f n) (hn : n < 16) :
    HoldsPrefix (buf.set n f[n]) f (n + 1) := by
  intro i hi16 hi
  by_cases heq : n = i
  · simp [heq]
  · rw [Vector.getElem_set_ne _ _ heq]
    exact h i hi16 (by omega)

theorem HoldsPrefix.eq {buf f : Frame} (h : HoldsPrefix buf f 16) : buf = f :=
  Vector.ext fun i hi => h i hi hi

/-- R89, Data: the bytes of a frame that are still to come are stored, and the last of them has the frame judged. -/
theorem Framer.rxBytes_drop_of_data {fr : Framer} {f : Frame} {n m : Nat} (hnm : n + m = 15)
    (hstate : fr.rxState = .data) (hp : fr.p.val = n) (hbuf : HoldsPrefix fr.rxBuf f n) :
    fr.rxBytes (f.toList.drop n) =
      ({ rxState := .waitLen, p := 0, rxBuf := f }, List.replicate m .none ++ [judge f]) := by
  induction m generalizing fr n with
  | zero =>
    obtain rfl : n = 15 := hnm
    have hfull : fr.rxBuf.set 15 f[15] = f := (hbuf.set (by decide)).eq
    rw [drop_toList_eq_cons f (by decide), Framer.rxBytes_cons, Framer.rxByte_data_complete hstate (Fin.ext hp),
      hfull, List.drop_of_length_le (by simp)]
    rfl
  | succ m ih =>
    subst hp
    have hlt : fr.p.val + 1 < 16 := by omega
    have hrest := ih (fr := (fr.rxByte f[fr.p.val]).1) (n := fr.p.val + 1) (by omega)
    rw [Framer.rxByte_data_store hstate hlt] at hrest
    rw [drop_toList_eq_cons f (by omega), Framer.rxBytes_cons, Framer.rxByte_data_store hstate hlt,
      hrest rfl rfl (hbuf.set (by omega))]
    rfl

/-- R89, R94: sixteen bytes fed from WaitLen, with the marker and a response code in front, are all stored, and the
sixteenth has them judged. -/
theorem Framer.rxBytes_of_waitLen {fr : Framer} {f : Frame} (hstate : fr.rxState = .waitLen) (h0 : f[0] = marker)
    (h1 : f[1] ∈ respCodes) :
    fr.rxBytes f.toList = ({ rxState := .waitLen, p := 0, rxBuf := f }, List.replicate 15 .none ++ [judge f]) := by
  have hbuf : HoldsPrefix ((fr.rxBuf.set 0 f[0]).set 1 f[1]) f 2 :=
    ((HoldsPrefix.zero fr.rxBuf f).set (by decide)).set (by decide)
  rw [toList_eq_cons_drop f, Framer.rxBytes_cons, Framer.rxByte_waitLen_marker hstate h0,
    drop_toList_eq_cons f (by decide), Framer.rxBytes_cons, Framer.rxByte_waitCode_code rfl h1,
    Framer.rxBytes_drop_of_data (m := 13) rfl rfl rfl hbuf]
  rfl

/-- R60, R65: of a response frame only the checksum byte is left to judge. -/
theorem judge_responseFrame (c : Byte) (d : Payload) (k : Byte) :
    judge (responseFrame c d k) =
      if k = checksum (responseFrame c d k) then .frame (responseFrame c d k) else .discard .badChecksum := by
  simp [judge]

/-- Settles O17: the row's own step shows the first event of the byte stream, and the fifteen steps after it show the
others. -/
theorem responseFramesAreReceivedFromWaitLen : Obligations.ResponseFramesAreReceivedFromWaitLen := by
  intro d k s i c h hstate
  obtain ⟨hcode, hexec⟩ := exec_responseRow h s
  have hrun := Framer.rxBytes_of_waitLen (f := responseFrame c d k) hstate rfl hcode
  rw [toList_eq_cons_drop, Framer.rxBytes_cons, judge_responseFrame] at hrun
  obtain ⟨hframer, hevents⟩ := Prod.mk.inj hrun
  obtain ⟨hfirst, hothers⟩ := List.cons.inj hevents
  obtain ⟨u, hafter, hu, hinput⟩ :=
    State.after_rxActions ((responseFrame c d k).toList.drop 1) (s := s.receiveFrame (responseFrame c d k)) rfl
  rw [State.receiveFrame_framer, hothers] at hafter
  exact ⟨_, u, hexec, congrArg some hfirst, by simpa using hafter, hu.trans hframer, hinput⟩

/-! ## The event port -/

@[simp] theorem reasonOfCode_code (r : Reason) : reasonOfCode r.code = r := by
  cases r <;> rfl

/-- R69: the listed bits of what an event drives show the event. -/
@[simp] theorem eventOfListedBits_event (e : Event) : eventOfListedBits e.kind e.data = some e := by
  cases e with
  | none => rfl
  | frame f => simp [eventOfListedBits, Event.kind, Event.data]
  | discard r => simp [eventOfListedBits, Event.kind, Event.data, BitVec.extractLsb'_setWidth_of_le]
  | txFrame f => simp [eventOfListedBits, Event.kind, Event.data]
  | chk v => simp [eventOfListedBits, Event.kind, Event.data, BitVec.extractLsb'_setWidth_of_le]
  | valid b => cases b <;> rfl
  | illegal w => simp [eventOfListedBits, Event.kind, Event.data, BitVec.extractLsb'_setWidth_of_le]

/-- R69: an event is read only under its own kind. -/
theorem kind_of_eventOfListedBits {kind : BitVec 3} {data : Bus} {e : Event}
    (h : eventOfListedBits kind data = some e) : e.kind = kind := by
  unfold eventOfListedBits at h
  split_ifs at h <;> obtain rfl := Option.some.inj h <;> subst kind <;> rfl

/-- Settles O30: the listed bits show the event, and the reader compares the whole of the data. -/
theorem eventPortReadsBack : Obligations.EventPortReadsBack := by
  refine ⟨fun e => by simp [eventOfPort], fun kind data e h => ?_⟩
  obtain ⟨hread, hdata⟩ := Option.filter_eq_some_iff.mp h
  exact ⟨kind_of_eventOfListedBits hread, beq_iff_eq.mp hdata⟩

/-- Settles O29. -/
theorem eventPortEncoding : Obligations.EventPortEncoding := by
  refine ⟨⟨rfl, rfl⟩, fun _ => ⟨rfl, rfl⟩, fun _ => rfl, ⟨rfl, rfl, rfl, rfl⟩, fun _ => ⟨rfl, rfl⟩,
    fun _ => ⟨rfl, rfl⟩, fun b => ⟨rfl, ?_⟩, fun _ => ⟨rfl, rfl⟩, fun e => ?_⟩
  · cases b <;> rfl
  · cases e <;> simp [Event.kind]

/-! ## Words of the spec and of the table -/

/-- Settles O3. -/
theorem specWordsDecode : Obligations.SpecWordsDecode :=
  ⟨rfl, rfl, rfl, rfl, rfl, rfl⟩

/-- Log 9: a table word is read as the transaction it stands for. -/
theorem decode_of_decodeTableWord {nbits w : Nat} {i : Instr} (h : decodeTableWord nbits w = some i) :
    decode (transactionOfTableWord nbits w) = .instr i := by
  unfold decodeTableWord at h
  split at h
  · next hdecode => rw [hdecode, Option.some.inj h]
  · contradiction

/-- Settles O2. -/
theorem placedTableWordRunsNext : Obligations.PlacedTableWordRunsNext := by
  intro s nbits w i h
  rw [State.withFetchWord, step_present_transact, runTransaction_instr (decode_of_decodeTableWord h)]

/-! ## The assembler's range checks -/

theorem bytesInRange_iff (bs : List Nat) : bytesInRange bs = true ↔ ∀ b ∈ bs, b ≤ 0xFF := by
  simp [bytesInRange, Nat.lt_succ_iff]

theorem wellFormed_rx (b : Nat) : (AsmLine.rx b).wellFormed = true ↔ b ≤ 0xFF := by
  simp [AsmLine.wellFormed, Nat.lt_succ_iff]

theorem wellFormed_tx (c : CodeArg) (v : Nat) :
    (AsmLine.tx c v).wellFormed = true ↔ c.value ≤ 0xFF ∧ v ≤ 0xFFFF := by
  simp [AsmLine.wellFormed, Nat.lt_succ_iff]

theorem wellFormed_chk (bs : List Nat) :
    (AsmLine.chk bs).wellFormed = true ↔ bs.length = 16 ∧ ∀ b ∈ bs, b ≤ 0xFF := by
  rw [AsmLine.wellFormed, Bool.and_eq_true, beq_iff_eq, bytesInRange_iff, frameLen]

/-- R70: `val` takes the operands `chk` takes. -/
theorem wellFormed_val (bs : List Nat) :
    (AsmLine.val bs).wellFormed = true ↔ bs.length = 16 ∧ ∀ b ∈ bs, b ≤ 0xFF :=
  wellFormed_chk bs

theorem wellFormed_word (w : Nat) : (AsmLine.word w).wellFormed = true ↔ w ≤ 0xFFFFFFFF := by
  simp [AsmLine.wellFormed, Nat.lt_succ_iff]

/-! ## The assembler's words -/

/-- R52: fields that do not overlap are put together by `|||` as by addition. -/
theorem ofNat_or_ofNat_of_lt {n i b : Nat} (a : Nat) (hb : b < 2 ^ i) :
    BitVec.ofNat n (2 ^ i * a) ||| BitVec.ofNat n b = BitVec.ofNat n (2 ^ i * a + b) := by
  rw [Nat.two_pow_add_eq_or_of_lt hb, BitVec.ofNat_or]

/-- R70: `rx`'s word as a number. -/
theorem rxWord_eq {b : Nat} (hb : b ≤ 0xFF) :
    0x01000000#32 ||| BitVec.ofNat 32 b = BitVec.ofNat 32 (0x01000000 + b) :=
  ofNat_or_ofNat_of_lt (i := 24) 1 (by omega)

/-- R70: `tx`'s word as a number. -/
theorem txWord_eq {c v : Nat} (hc : c ≤ 0xFF) (hv : v ≤ 0xFFFF) :
    0x03000000#32 ||| BitVec.ofNat 32 c <<< 16 ||| BitVec.ofNat 32 v =
      BitVec.ofNat 32 (0x03000000 + c * 65536 + v) := by
  have hshift : BitVec.ofNat 32 c <<< 16 = BitVec.ofNat 32 (c * 65536) := by
    apply BitVec.eq_of_toNat_eq
    simp [Nat.shiftLeft_eq]
  have hcode : 0x03000000#32 ||| BitVec.ofNat 32 (c * 65536) = BitVec.ofNat 32 (2 ^ 24 * 3 + c * 65536) :=
    ofNat_or_ofNat_of_lt (i := 24) 3 (by omega)
  have haligned : 2 ^ 24 * 3 + c * 65536 = 2 ^ 16 * (768 + c) := by omega
  rw [hshift, hcode, haligned, ofNat_or_ofNat_of_lt (768 + c) (by omega)]
  congr 1
  omega

/-- R70: the frame of sixteen bytes in range is those bytes. -/
theorem toNat_frameOfNats {bs : List Nat} (hlen : bs.length = 16) (hbytes : ∀ b ∈ bs, b ≤ 0xFF) :
    (frameOfNats bs).toList.map BitVec.toNat = bs := by
  apply List.ext_getElem
  · simp [hlen]
  · intro i _ hi
    have hbyte : bs[i] < 256 := Nat.lt_succ_of_le (hbytes bs[i] (List.getElem_mem hi))
    simp [frameOfNats, hi, Nat.mod_eq_of_lt hbyte]

/-- Settles O57, line by line: an operand in range gives the line's word, any other is rejected. -/
theorem assemblerEmitsTheListedWords : Obligations.AssemblerEmitsTheListedWords := by
  refine ⟨rfl, fun b => ?rx, rfl, fun c v => ?tx, fun bs h => ?frame, fun bs h => ?noFrame,
    fun w hw => if_pos ((wellFormed_word w).mpr hw), rfl⟩
  case rx =>
    simp only [assemble, wellFormed_rx, asmTransaction]
    split_ifs with hb
    · rw [rxWord_eq hb]
    · rfl
  case tx =>
    simp only [assemble, wellFormed_tx, asmTransaction]
    split_ifs with h
    · obtain ⟨hc, hv⟩ := h
      rw [txWord_eq hc hv]
    · rfl
  case frame =>
    exact ⟨frameOfNats bs, toNat_frameOfNats h.1 h.2, if_pos ((wellFormed_chk bs).mpr h),
      if_pos ((wellFormed_val bs).mpr h)⟩
  case noFrame =>
    exact ⟨if_neg (mt (wellFormed_chk bs).mp h), if_neg (mt (wellFormed_val bs).mp h)⟩

/-! ## Pseudo-instructions -/

theorem expand_rxs {bs : List Nat} (hne : bs ≠ []) (hbytes : ∀ b ∈ bs, b ≤ 0xFF) (last : Option Frame) :
    expand last (.rxs bs) = some (bs.map .rx) :=
  if_pos (by simpa [PseudoLine.wellFormed, bytesInRange_iff, hne] using hbytes)

theorem expand_rxf {bs : List Nat} (hlen : bs.length = 16) (hbytes : ∀ b ∈ bs, b ≤ 0xFF) (last : Option Frame) :
    expand last (.rxf bs) = some (bs.map .rx) :=
  if_pos (by simpa [PseudoLine.wellFormed, bytesInRange_iff, frameLen, hlen] using hbytes)

/-- R10, R71: the bytes of a frame are an operand of `rxf`. -/
theorem frame_bytes_le (f : Frame) : ∀ b ∈ f.toList.map BitVec.toNat, b ≤ 0xFF := by
  intro b hb
  obtain ⟨x, -, rfl⟩ := List.mem_map.mp hb
  exact Nat.le_of_lt_succ x.isLt

/-- Settles O58: operands in range pass the line's check, and `echo` is `rxf` of the frame it feeds back. -/
theorem pseudoInstructionsExpandAsListed : Obligations.PseudoInstructionsExpandAsListed := by
  refine ⟨fun last bs hne hbytes => ?bytes, fun f => ?echo, fun last c hc => ?txq, fun last v hv => ?param,
    fun last on => rfl⟩
  case bytes =>
    have hrxs := expand_rxs hne hbytes last
    exact ⟨hrxs, fun hlen => (expand_rxf hlen hbytes last).trans hrxs.symm⟩
  case echo =>
    have hecho : expand (some f) .echo = some (f.toList.map fun b => .rx b.toNat) := rfl
    rw [expand_rxf (by simp) (frame_bytes_le f), hecho, List.map_map]
    rfl
  case txq => exact if_pos (decide_eq_true (Nat.lt_succ_of_le hc))
  case param =>
    have hrange : decide (v < 65536) = true := decide_eq_true (Nat.lt_succ_of_le hv)
    exact ⟨if_pos hrange, if_pos hrange⟩

end Sys2Proof.Machine

/-! PROOFS, 40_codec. The checksum as the sum of a set of bytes, from which the effect of writing one byte follows once;
the verdict and the acceptance test by their conditions; then the serializer's frame and the operations that use them. -/

namespace Sys2Proof

/-! ## The checksum as a sum of bytes -/

/-- R80: bytes 1 to 13 in offset order. -/
theorem take_drop_toList (f : Frame) :
    (f.toList.drop 1).take 13 =
      [f[1], f[2], f[3], f[4], f[5], f[6], f[7], f[8], f[9], f[10], f[11], f[12], f[13]] := by
  simp only [drop_toList_eq_cons, Nat.reduceLT, Nat.reduceAdd, List.take_succ_cons, List.take_zero]

/-- R80: the exact sum is the sum of the bytes in offset order. -/
theorem checksumSum_eq_sum_map (f : Frame) :
    checksumSum f = (((f.toList.drop 1).take 13).map BitVec.toNat).sum := by
  rw [take_drop_toList]
  simp [checksumSum, Nat.add_assoc]

/-- R80: thirteen bytes of at most 255 each. -/
theorem checksumSum_le (f : Frame) : checksumSum f ≤ 3315 := by
  unfold checksumSum
  omega

/-- R80: the offsets the checksum covers. -/
def checksumOffsets : Finset (Fin 16) := Finset.Icc 1 13

theorem mem_checksumOffsets {i : Fin 16} : i ∈ checksumOffsets ↔ 1 ≤ i.val ∧ i.val ≤ 13 := Finset.mem_Icc

/-- R80: truncating the exact sum is adding the bytes modulo 256. -/
theorem checksum_eq_sum (f : Frame) : checksum f = ∑ k ∈ checksumOffsets, f[k] := by
  have hoffsets : checksumOffsets = {1, 2, 3, 4, 5, 6, 7, 8, 9, 10, 11, 12, 13} := by decide
  simp [hoffsets, checksum, checksumSum, BitVec.ofNat_add, add_assoc]

/-- Writing a byte of a frame is updating the function from offsets to bytes. -/
theorem getElem_set_eq_update (f : Frame) (i k : Fin 16) (b : Byte) :
    (f.set i b)[k] = Function.update (fun k : Fin 16 => f[k]) i b k := by
  simp [Vector.getElem_set, Function.update_apply, Fin.ext_iff, eq_comm]

/-- R83 law 2: a byte outside 1 to 13 does not enter the checksum. -/
theorem checksum_set_of_notMem {i : Fin 16} (hi : i ∉ checksumOffsets) (f : Frame) (b : Byte) :
    checksum (f.set i b) = checksum f := by
  simp only [checksum_eq_sum, getElem_set_eq_update, Finset.sum_update_of_notMem hi]

/-- R83 law 3: a byte of 1 to 13 enters the checksum once. -/
theorem checksum_set_add_of_mem {i : Fin 16} (hi : i ∈ checksumOffsets) (f : Frame) (b : Byte) :
    checksum (f.set i b) + f[i] = checksum f + b := by
  simp only [checksum_eq_sum, getElem_set_eq_update, Finset.sum_update_of_mem hi]
  rw [Finset.sum_eq_sum_sdiff_singleton_add hi fun k => f[k]]
  abel

/-- R83 law 2, for the marker. -/
@[simp] theorem checksum_set_marker (f : Frame) (b : Byte) : checksum (f.set 0 b) = checksum f :=
  checksum_set_of_notMem (i := 0) (by decide) f b

/-! ## The verdict and the acceptance test -/

/-- R81. -/
theorem isValidFrame_iff (f : Frame) : isValidFrame f = true ↔ f[14] = checksum f ∧ f[15] = terminator := by
  simp [isValidFrame]

/-- R94: the four conditions, the last two as R81's verdict. -/
theorem accept_iff (f : Frame) :
    accept f = true ↔ f[0] = marker ∧ f[1] ∈ respCodes ∧ isValidFrame f = true := by
  simp [accept, and_assoc]

/-! ## The serializer's frame -/

/-- R83 law 4. -/
theorem checksum_encodeFrame (c : Byte) (prm : Param) : checksum (encodeFrame c prm) = c + loByte prm + hiByte prm :=
  checksum_commandLayout c _ prm

/-- R84 law 1. -/
@[simp] theorem isValidFrame_encodeFrame (c : Byte) (prm : Param) : isValidFrame (encodeFrame c prm) = true :=
  (isValidFrame_iff _).mpr ⟨encodeFrame_chk c prm, encodeFrame_terminator c prm⟩

/-- R84 law 2. -/
@[simp] theorem accept_encodeFrame_iff (c : Byte) (prm : Param) :
    accept (encodeFrame c prm) = true ↔ c ∈ respCodes := by
  simp [accept_iff]

/-- R59, R82: bytes 4 to 13 of a command frame are zero. -/
theorem encodeFrame_zero (c : Byte) (prm : Param) {i : Nat} (h4 : 4 ≤ i) (h13 : i ≤ 13) :
    (encodeFrame c prm)[i] = 0x00#8 := by
  interval_cases i <;> rfl

/-! ## The word of TX_ENCODE -/

/-- R70, R87: TX_ENCODE's word put together by `|||` is the word of its fields. -/
theorem txEncodeWord_eq (c : Byte) (prm : Param) :
    0x03000000#32 ||| c.setWidth 32 <<< 16 ||| prm.setWidth 32 = opWord 0b011#3 c prm := by
  have hword := Machine.txWord_eq (Nat.le_of_lt_succ c.isLt) (Nat.le_of_lt_succ prm.isLt)
  rw [BitVec.ofNat_toNat, BitVec.ofNat_toNat] at hword
  rw [hword]
  apply BitVec.eq_of_toNat_eq
  rw [toNat_opWord, BitVec.toNat_ofNat]
  simp
  omega

theorem txEncodeWord_lt (c : Byte) (prm : Param) : (opWord 0b011#3 c prm).toNat < 0x04000000 := by
  rw [toNat_opWord]
  simp
  omega

/-- R54, R55: a word below CHECKSUM's takes nothing from the bus. -/
theorem decode_op_bus_irrelevant {w : OpWord} (h : w.toNat < 0x04000000) (bus bus' : Bus) :
    decode (.op w bus) = decode (.op w bus') := by
  have hchk : w.toNat ≠ 67108864 := by omega
  have hval : w.toNat ≠ 83886080 := by omega
  simp only [decode, decodeOp_by_range, if_neg hchk, if_neg hval]

end Sys2Proof

namespace Sys2Proof.Machine

/-- Settles O12: the listed word is the word `encode` gives the operation, and the bus does not enter its decoding. -/
theorem txEncodeEmitsTheFrameAndClearsTheReceiver : Obligations.TxEncodeEmitsTheFrameAndClearsTheReceiver := by
  refine ⟨fun c prm bus => ?_, fun c prm s => rfl⟩
  rw [txEncodeWord_eq, decode_op_bus_irrelevant (txEncodeWord_lt c prm) bus 0]
  exact decode_encode_txEncode c prm

/-- Settles O20: the byte written enters the sum once, and a swap is two such writes. -/
theorem checksumShiftsWithOneByte : Obligations.ChecksumShiftsWithOneByte := by
  refine ⟨fun f i d h1 h13 => ?shift, fun f i b h1 h13 hne heq => ?change, fun f i j hi1 hi13 hj1 hj13 => ?swap⟩
  case shift =>
    have hset := checksum_set_add_of_mem (mem_checksumOffsets.mpr ⟨h1, h13⟩) f (f[i] + d)
    apply add_right_cancel (b := f[i])
    rw [hset]
    abel
  case change =>
    have hset := checksum_set_add_of_mem (mem_checksumOffsets.mpr ⟨h1, h13⟩) f b
    rw [heq] at hset
    exact hne (add_left_cancel hset).symm
  case swap =>
    have hfirst := checksum_set_add_of_mem (mem_checksumOffsets.mpr ⟨hi1, hi13⟩) f f[j]
    have hsecond := checksum_set_add_of_mem (mem_checksumOffsets.mpr ⟨hj1, hj13⟩) (f.set i f[j]) f[i]
    have hj : (f.set i f[j])[j] = f[j] := by simp [Vector.getElem_set]
    rw [hj, hfirst] at hsecond
    exact add_right_cancel hsecond

/-- Settles O23. -/
theorem serializedFramesAreValid : Obligations.SerializedFramesAreValid :=
  fun c prm => ⟨checksum_encodeFrame c prm, isValidFrame_encodeFrame c prm, accept_encodeFrame_iff c prm⟩

/-- Settles O24: bytes 1 to 3 hold the code and the parameter. -/
theorem serializerIsInjective : Obligations.SerializerIsInjective := by
  intro c c' prm prm' h
  have hcode : c = c' := congrArg (fun f : Frame => f[1]) h
  have hlo : loByte prm = loByte prm' := congrArg (fun f : Frame => f[2]) h
  have hhi : hiByte prm = hiByte prm' := congrArg (fun f : Frame => f[3]) h
  exact ⟨hcode, by rw [← le16_loByte_hiByte prm, hlo, hhi, le16_loByte_hiByte]⟩

/-- Settles O13. -/
theorem checksumOperationEmitsTheChecksum : Obligations.ChecksumOperationEmitsTheChecksum :=
  ⟨decode_checksumWord, fun _ _ => rfl⟩

/-- Settles O14. -/
theorem validateOperationEmitsTheVerdict : Obligations.ValidateOperationEmitsTheVerdict :=
  ⟨decode_validateWord, fun _ _ => rfl⟩

/-- Settles O18. -/
theorem checksumIsTheByteSum : Obligations.ChecksumIsTheByteSum := by
  intro f
  rw [← checksumSum_eq_sum_map]
  exact ⟨BitVec.toNat_ofNat _ _, checksumSum_le f⟩

/-- Settles O19. -/
theorem checksumIgnoresMarkerChecksumAndTerminator : Obligations.ChecksumIgnoresMarkerChecksumAndTerminator :=
  fun f b => ⟨checksum_set_marker f b, checksum_set_of_notMem (i := 14) (by decide) f b,
    checksum_set_of_notMem (i := 15) (by decide) f b⟩

/-- Settles O21: the verdict reads bytes 14 and 15 and the checksum, none of which the marker enters. -/
theorem validFrameChecksChecksumAndTerminator : Obligations.ValidFrameChecksChecksumAndTerminator := by
  refine fun f => ⟨isValidFrame_iff f, fun b => ?_⟩
  simp [isValidFrame]

/-- Settles O22. -/
theorem serializerBuildsTheCommandLayout : Obligations.SerializerBuildsTheCommandLayout :=
  fun c prm => ⟨encodeFrame_marker c prm, encodeFrame_code c prm, encodeFrame_lo c prm, encodeFrame_hi c prm,
    fun _ h4 h13 => encodeFrame_zero c prm h4 h13, encodeFrame_chk c prm, encodeFrame_terminator c prm⟩

end Sys2Proof.Machine

/-! PROOFS, 41_receiver. RX_BYTE and RX_CLEAR as operations; then the byte stream under the invariant of R24: a received
byte ends the candidate or extends it by itself, from which follow what an emitted frame is (R94), how soon the receiver
is back in WaitLen (R95, R96) and how far apart frames are (R98). -/

namespace Sys2Proof.Machine

/-! ## The operations -/

/-- R53, R55: a word in RX_BYTE's range decodes to it on every bus. -/
theorem decode_op_eq_rxByte {w : OpWord} {b : Byte} (h : w.toNat = 0x01000000 + b.toNat) (bus : Bus) :
    decode (.op w bus) = .instr (.rxByte b) := by
  have hbyte : opByte w = b := BitVec.eq_of_toNat_eq (by rw [toNat_opByte]; omega)
  rw [decode, decodeOp_by_range, if_neg (by omega), if_pos (by omega), hbyte]

/-- R70: `rx`'s word, with its byte put in by `|||`, as a number. -/
theorem toNat_rxByteWord (b : Byte) : (0x01000000#32 ||| b.setWidth 32).toNat = 0x01000000 + b.toNat := by
  have hword := rxWord_eq (Nat.le_of_lt_succ b.isLt)
  rw [BitVec.ofNat_toNat] at hword
  rw [hword, BitVec.toNat_ofNat]
  omega

/-- R13, R62: the response codes by their values. -/
theorem mem_respCodes_iff (b : Byte) : b ∈ respCodes ↔ b = 0x72#8 ∨ b = 0x76#8 ∨ b = 0x73#8 := by
  simp [respCodes, codeR, codeV, codeS]

/-- Settles O9: each case of the pseudocode is the framer's transition in its state. -/
theorem rxByteFollowsTheReceiverPseudocode : Obligations.RxByteFollowsTheReceiverPseudocode := by
  refine ⟨fun b bus => decode_op_eq_rxByte (toNat_rxByteWord b) bus, fun b s => ⟨s.receiveByte b, rfl, rfl, ?_⟩⟩
  rw [State.receiveByte_framer, State.receiveByte_event, ← mem_respCodes_iff]
  refine ⟨fun hstate hb => ?_, fun hstate hb => ?_, fun hstate hb => ?_, fun hstate hb => ?_, fun hstate hp => ?_,
    fun hstate hp => ?_⟩
  · rw [Framer.rxByte_waitLen_marker hstate hb]
    exact ⟨rfl, rfl⟩
  · rw [Framer.rxByte_waitLen_other hstate hb]
    exact ⟨rfl, rfl⟩
  · rw [Framer.rxByte_waitCode_code hstate hb]
    exact ⟨rfl, rfl⟩
  · rw [Framer.rxByte_waitCode_other hstate hb]
    exact ⟨rfl, rfl⟩
  · rw [Framer.rxByte_data_store hstate (Nat.succ_lt_succ hp)]
    exact ⟨rfl, rfl, rfl, rfl⟩
  · rw [Framer.rxByte_data_complete hstate (Fin.ext hp)]
    exact ⟨rfl, rfl⟩

/-- Settles O11. -/
theorem rxClearDropsThePartialFrame : Obligations.RxClearDropsThePartialFrame :=
  ⟨fun _ => rfl, fun _ => rfl⟩

/-- Settles O46. -/
theorem byteStepsAreTheByteStream : Obligations.ByteStepsAreTheByteStream :=
  fun _ bs _ hinput => State.after_rxActions bs hinput

/-! ## Emitted frames -/

/-- R89, R110: the verdict on a candidate is FRAME exactly when it is valid. -/
theorem judge_eq_frame_iff (f g : Frame) : judge f = .frame g ↔ isValidFrame f = true ∧ f = g := by
  rw [isValidFrame_iff]
  obtain ⟨hchk, h⟩ | ⟨-, hterm, h⟩ | ⟨hchk, hterm, h⟩ := judge_cases f
  · simp [h, hchk]
  · simp [h, hterm]
  · simp only [h, hchk, hterm, Event.frame.injEq, true_and]

/-- R89: FRAME is emitted only at the sixteenth byte of a valid candidate. -/
theorem Framer.rxByte_eq_frame {fr : Framer} {b : Byte} {f : Frame} (h : (fr.rxByte b).2 = .frame f) :
    fr.rxState = .data ∧ fr.p = 15 ∧ isValidFrame f = true ∧ fr.rxBuf.set 15 b = f := by
  obtain ⟨-, -, hrx⟩ | ⟨-, -, hrx⟩ | ⟨-, -, hrx⟩ | ⟨-, -, hrx⟩ | ⟨-, _, hrx⟩ | ⟨hstate, hp, hrx⟩ :=
    fr.rxByte_cases b <;> rw [hrx] at h
  · contradiction
  · contradiction
  · contradiction
  · contradiction
  · contradiction
  · obtain ⟨hvalid, hbuf⟩ := (judge_eq_frame_iff _ _).mp h
    exact ⟨hstate, hp, hbuf ▸ hvalid, hbuf⟩

/-- Settles O48: the four conditions put the marker and a response code in front and make the verdict FRAME. -/
theorem acceptableFramesAreEmitted : Obligations.AcceptableFramesAreEmitted := by
  intro fr f hstate haccept
  obtain ⟨h0, h1, hvalid⟩ := (accept_iff f).mp haccept
  rw [Framer.rxBytes_of_waitLen hstate h0 h1, (judge_eq_frame_iff f f).mpr ⟨hvalid, rfl⟩]

/-! ## The candidate under the invariant -/

/-- R24: the invariant is kept by any number of received bytes. -/
theorem Framer.Inv.rxBytes {fr : Framer} (hinv : fr.Inv) (bs : List Byte) : (fr.rxBytes bs).1.Inv := by
  induction bs generalizing fr with
  | nil => exact hinv
  | cons b bs ih => exact ih (hinv.rxByte b)

theorem Framer.Inv.p_of_waitLen {fr : Framer} (hinv : fr.Inv) (hstate : fr.rxState = .waitLen) : fr.p = 0 :=
  hinv.1 hstate

/-- R24: outside WaitLen the candidate has at least its marker. -/
theorem Framer.Inv.p_pos {fr : Framer} (hinv : fr.Inv) (hstate : fr.rxState ≠ .waitLen) : 0 < fr.p.val := by
  obtain ⟨-, hcode, hdata⟩ := hinv
  cases h : fr.rxState with
  | waitLen => exact absurd h hstate
  | waitCode => simp [(hcode h).1]
  | data => exact Nat.lt_of_lt_of_le Nat.zero_lt_two (hdata h).1

/-- R89, R91: a received byte ends the candidate or is stored at its end. -/
theorem Framer.Inv.rxByte_ends_or_extends {fr : Framer} (hinv : fr.Inv) (b : Byte) :
    ((fr.rxByte b).1.rxState = .waitLen ∧ (fr.rxByte b).1.p = 0) ∨
    ((fr.rxByte b).1.p.val = fr.p.val + 1 ∧ (fr.rxByte b).1.rxBuf = fr.rxBuf.set fr.p b) := by
  obtain ⟨hlen, hcode, -⟩ := hinv
  obtain ⟨hstate, -, h⟩ | ⟨-, -, h⟩ | ⟨hstate, -, h⟩ | ⟨-, -, h⟩ | ⟨-, _, h⟩ | ⟨-, -, h⟩ :=
    fr.rxByte_cases b <;> rw [h]
  · exact .inr (by simp [hlen hstate])
  · exact .inl ⟨rfl, rfl⟩
  · exact .inr (by simp [(hcode hstate).1])
  · exact .inl ⟨rfl, rfl⟩
  · exact .inr ⟨rfl, rfl⟩
  · exact .inl ⟨rfl, rfl⟩

/-- R23: the bytes of the candidate in hand, in the order received. -/
def Framer.candidate (fr : Framer) : List Byte := fr.rxBuf.toList.take fr.p

theorem Framer.candidate_of_p_eq_zero {fr : Framer} (h : fr.p = 0) : fr.candidate = [] := by
  simp [Framer.candidate, h]

/-- R22: writing byte `n` of a frame adds it to the bytes before. -/
theorem take_succ_toList_set (f : Frame) {n : Nat} (hn : n < 16) (b : Byte) :
    (f.set n b).toList.take (n + 1) = f.toList.take n ++ [b] := by
  rw [List.take_succ_eq_append_getElem (by simpa using hn)]
  simp [Vector.toList_set, List.take_set_of_le]

/-- R91: a received byte leaves the receiver in WaitLen with no candidate, or is appended to the candidate. -/
theorem Framer.Inv.candidate_rxByte {fr : Framer} (hinv : fr.Inv) (b : Byte) :
    ((fr.rxByte b).1.rxState = .waitLen ∧ (fr.rxByte b).1.candidate = []) ∨
    (fr.rxByte b).1.candidate = fr.candidate ++ [b] := by
  obtain ⟨hstate, hp⟩ | ⟨hp, hbuf⟩ := hinv.rxByte_ends_or_extends b
  · exact .inl ⟨hstate, Framer.candidate_of_p_eq_zero hp⟩
  · right
    rw [Framer.candidate, hp, hbuf, take_succ_toList_set _ fr.p.isLt, Framer.candidate]

/-- R93: the byte after some received bytes. -/
theorem Framer.rxBytes_concat_fst (fr : Framer) (bs : List Byte) (b : Byte) :
    (fr.rxBytes (bs ++ [b])).1 = ((fr.rxBytes bs).1.rxByte b).1 := by
  simp [Framer.rxBytes_append]

/-- R94: the candidate in hand is the last of the bytes received, and the receiver was in WaitLen before its first. -/
theorem Framer.Inv.exists_eq_append_candidate {fr : Framer} (hinv : fr.Inv) (hstate : fr.rxState = .waitLen)
    (bs : List Byte) :
    ∃ pre, bs = pre ++ (fr.rxBytes bs).1.candidate ∧ (fr.rxBytes pre).1.rxState = .waitLen := by
  induction bs using List.reverseRecOn with
  | nil => exact ⟨[], by simp [Framer.candidate_of_p_eq_zero (hinv.p_of_waitLen hstate)], hstate⟩
  | append_singleton bs b ih =>
    obtain ⟨pre, hbs, hpre⟩ := ih
    obtain ⟨hended, hempty⟩ | hextended := (hinv.rxBytes bs).candidate_rxByte b
    · refine ⟨bs ++ [b], ?_, ?_⟩ <;> rw [Framer.rxBytes_concat_fst]
      · rw [hempty, List.append_nil]
      · exact hended
    · refine ⟨pre, ?_, hpre⟩
      rw [Framer.rxBytes_concat_fst, hextended, ← List.append_assoc, ← hbs]

/-- R94 for a receiver that meets the invariant. -/
theorem Framer.Inv.emitted_frame {fr : Framer} (hinv : fr.Inv) (hstate : fr.rxState = .waitLen) {bs : List Byte}
    {b : Byte} {f : Frame} (h : ((fr.rxBytes bs).1.rxByte b).2 = .frame f) :
    accept f = true ∧ ∃ pre, bs ++ [b] = pre ++ f.toList ∧ (fr.rxBytes pre).1.rxState = .waitLen := by
  obtain ⟨pre, hbs, hpre⟩ := hinv.exists_eq_append_candidate hstate bs
  obtain ⟨hdata, hp, hvalid, rfl⟩ := Framer.rxByte_eq_frame h
  obtain ⟨-, -, hinvData⟩ := hinv.rxBytes bs
  obtain ⟨-, hmarker, hcode⟩ := hinvData hdata
  refine ⟨(accept_iff _).mpr ⟨by simpa using hmarker, by simpa using hcode, hvalid⟩, pre, ?_, hpre⟩
  have hlast := take_succ_toList_set (fr.rxBytes bs).1.rxBuf (n := 15) (by decide) b
  rw [List.take_of_length_le (by simp)] at hlast
  rw [Framer.candidate, hp] at hbs
  rw [hlast, ← List.append_assoc]
  exact congrArg (· ++ [b]) hbs

/-- R89: in WaitLen the counter is not read. -/
theorem Framer.rxByte_clear_of_waitLen {fr : Framer} (hstate : fr.rxState = .waitLen) (b : Byte) :
    fr.clear.rxByte b = fr.rxByte b := by
  by_cases hb : b = marker
  · rw [Framer.rxByte_waitLen_marker rfl hb, Framer.rxByte_waitLen_marker hstate hb, Framer.clear_rxBuf]
  · rw [Framer.rxByte_waitLen_other rfl hb, Framer.rxByte_waitLen_other hstate hb]
    rfl

/-- R89: in WaitLen a clear changes no later transition. -/
theorem Framer.rxBytes_clear_of_waitLen {fr : Framer} (hstate : fr.rxState = .waitLen) (bs : List Byte) :
    (fr.clear.rxBytes bs).1.rxState = (fr.rxBytes bs).1.rxState ∧
    ∀ b, (fr.clear.rxBytes bs).1.rxByte b = (fr.rxBytes bs).1.rxByte b := by
  cases bs with
  | nil => exact ⟨hstate.symm, Framer.rxByte_clear_of_waitLen hstate⟩
  | cons b bs => simp [Framer.rxByte_clear_of_waitLen hstate]

/-- Settles O49: the counter is not read in WaitLen, so the receiver may be taken to meet the invariant; then the frame
is the candidate and its sixteenth byte. -/
theorem emittedFramesAreTheLastSixteenBytes : Obligations.EmittedFramesAreTheLastSixteenBytes := by
  intro fr bs b f hstate h
  rw [← (Framer.rxBytes_clear_of_waitLen hstate bs).2] at h
  obtain ⟨haccept, pre, hbytes, hpre⟩ := fr.inv_clear.emitted_frame rfl h
  exact ⟨haccept, pre, hbytes, (Framer.rxBytes_clear_of_waitLen hstate pre).1 ▸ hpre⟩

/-! ## Recovery and spacing -/

/-- R96: no more bytes than the candidate lacks bring the receiver to WaitLen. -/
theorem Framer.Inv.exists_take_waitLen {fr : Framer} (hinv : fr.Inv) {bs : List Byte}
    (hlen : 16 ≤ fr.p.val + bs.length) :
    ∃ k, fr.p.val + k ≤ 16 ∧ (fr.rxBytes (bs.take k)).1.rxState = .waitLen := by
  induction bs generalizing fr with
  | nil => exact absurd fr.p.isLt (Nat.not_lt.mpr hlen)
  | cons b bs ih =>
    rw [List.length_cons] at hlen
    obtain ⟨hstate, -⟩ | ⟨hp, -⟩ := hinv.rxByte_ends_or_extends b
    · exact ⟨1, by omega, by simpa using hstate⟩
    · obtain ⟨k, hk, hwait⟩ := ih (hinv.rxByte b) (by omega)
      exact ⟨k + 1, by omega, hwait⟩

/-- R98: bytes too few to complete the candidate emit no FRAME. -/
theorem Framer.Inv.frame_notMem_rxBytes {fr : Framer} (hinv : fr.Inv) {bs : List Byte}
    (hlen : fr.p.val + bs.length ≤ 15) (g : Frame) : Event.frame g ∉ (fr.rxBytes bs).2 := by
  induction bs generalizing fr with
  | nil => simp
  | cons b bs ih =>
    rw [List.length_cons] at hlen
    have hp : (fr.rxByte b).1.p.val ≤ fr.p.val + 1 := by
      obtain ⟨-, hp⟩ | ⟨hp, -⟩ := hinv.rxByte_ends_or_extends b
      · simp [hp]
      · exact hp.le
    rw [Framer.rxBytes_cons, List.mem_cons, not_or]
    refine ⟨fun hframe => ?_, ih (hinv.rxByte b) (by omega)⟩
    obtain ⟨-, hp15, -⟩ := Framer.rxByte_eq_frame hframe.symm
    simp [hp15] at hlen

/-- Settles O52: outside WaitLen the candidate lacks at most fifteen bytes. -/
theorem receiverRecoversWithinFifteenBytes : Obligations.ReceiverRecoversWithinFifteenBytes := by
  intro fr bs hinv hlen
  by_cases hstate : fr.rxState = .waitLen
  · exact ⟨0, Nat.zero_le 15, hstate⟩
  · have hp := hinv.p_pos hstate
    obtain ⟨k, hk, hwait⟩ := hinv.exists_take_waitLen (bs := bs) (by omega)
    exact ⟨k, by omega, hwait⟩

/-- Settles O53: FRAME leaves the receiver in WaitLen with p = 0, and fifteen bytes complete no candidate from there. -/
theorem framesAreSixteenBytesApart : Obligations.FramesAreSixteenBytesApart := by
  intro fr b f bs hframe hlen g
  obtain ⟨hstate, hp, -⟩ := Framer.rxByte_eq_frame hframe
  rw [Framer.rxByte_data_complete hstate hp]
  exact (Framer.inv_of_waitLen rfl rfl).frame_notMem_rxBytes (by simpa using hlen) g

/-- R93: the last event of received bytes is among those of any later part of them that is not empty. -/
theorem Framer.mem_of_getLast?_rxBytes_append {fr : Framer} {as bs : List Byte} {e : Event} (hbs : bs ≠ [])
    (h : (fr.rxBytes (as ++ bs)).2.getLast? = some e) : e ∈ ((fr.rxBytes as).1.rxBytes bs).2 := by
  have hevents : ((fr.rxBytes as).1.rxBytes bs).2 ≠ [] := by
    rwa [ne_eq, ← List.length_eq_zero_iff, Framer.length_rxBytes, List.length_eq_zero_iff]
  rw [Framer.rxBytes_append, List.getLast?_append_of_ne_nil _ hevents] at h
  exact List.mem_of_getLast? h

/-- Settles O50: outside WaitLen the receiver is back in WaitLen after one to fifteen of the bytes, and those left are
too few for a frame. -/
theorem frameIsReceivedExactlyFromWaitLen : Obligations.FrameIsReceivedExactlyFromWaitLen := by
  intro fr f hinv haccept
  refine ⟨fun hlast => ?_, fun hstate => by simp [acceptableFramesAreEmitted fr f hstate haccept]⟩
  by_contra hstate
  have hp := hinv.p_pos hstate
  obtain ⟨k, hk, hwait⟩ := hinv.exists_take_waitLen (bs := f.toList) (by simp)
  have hkpos : k ≠ 0 := by
    rintro rfl
    exact hstate hwait
  have hinv' := hinv.rxBytes (f.toList.take k)
  have hleft : (f.toList.drop k).length = 16 - k := by simp
  have hrest : f.toList.drop k ≠ [] := List.ne_nil_of_length_pos (by omega)
  have htooFew : (fr.rxBytes (f.toList.take k)).1.p.val + (f.toList.drop k).length ≤ 15 := by
    rw [hinv'.p_of_waitLen hwait, Fin.val_zero]
    omega
  rw [← List.take_append_drop k f.toList] at hlast
  exact hinv'.frame_notMem_rxBytes htooFew f (Framer.mem_of_getLast?_rxBytes_append hrest hlast)

/-- R91: without a marker the receiver stays in WaitLen. -/
theorem Framer.rxBytes_waitLen_of_no_marker {fr : Framer} (hstate : fr.rxState = .waitLen) {bs : List Byte}
    (hbs : ∀ b ∈ bs, b ≠ marker) : (fr.rxBytes bs).1.rxState = .waitLen := by
  induction bs generalizing fr with
  | nil => exact hstate
  | cons b bs ih =>
    obtain ⟨hb, hrest⟩ := List.forall_mem_cons.mp hbs
    rw [Framer.rxBytes_cons, Framer.rxByte_waitLen_other hstate hb]
    exact ih rfl hrest

/-- R95: fifteen bytes without a marker bring any receiver to WaitLen: it comes there within them, and stays. -/
theorem Framer.Inv.rxBytes_waitLen_of_fifteen {fr : Framer} (hinv : fr.Inv) {bs : List Byte} (hlen : bs.length = 15)
    (hbs : ∀ b ∈ bs, b ≠ marker) : (fr.rxBytes bs).1.rxState = .waitLen := by
  obtain ⟨k, -, hwait⟩ := receiverRecoversWithinFifteenBytes fr bs hinv hlen
  rw [← List.take_append_drop k bs, Framer.rxBytes_append]
  exact Framer.rxBytes_waitLen_of_no_marker hwait fun b hb => hbs b (List.mem_of_mem_drop hb)

/-- R95: the receiver is in WaitLen after bytes of which none is a late marker. -/
theorem Framer.Inv.rxBytes_waitLen_of_quiet {fr : Framer} (hinv : fr.Inv) {bs : List Byte}
    (hstart : 15 ≤ bs.length ∨ fr.rxState = .waitLen) (hbs : ∀ b ∈ bs.drop (bs.length - 15), b ≠ marker) :
    (fr.rxBytes bs).1.rxState = .waitLen := by
  by_cases hlen : 15 ≤ bs.length
  · rw [← List.take_append_drop (bs.length - 15) bs, Framer.rxBytes_append]
    exact (hinv.rxBytes _).rxBytes_waitLen_of_fifteen (by rw [List.length_drop]; omega) hbs
  · rw [Nat.sub_eq_zero_of_le (by omega), List.drop_zero] at hbs
    exact Framer.rxBytes_waitLen_of_no_marker (hstart.resolve_left hlen) hbs

/-- Settles O51. -/
theorem quietPrefixResynchronizes : Obligations.QuietPrefixResynchronizes := by
  intro fr n v hinv haccept hstart hquiet
  have hwait := hinv.rxBytes_waitLen_of_quiet hstart hquiet
  refine ⟨hwait, ?_⟩
  rw [Framer.rxBytes_append, acceptableFramesAreEmitted _ v hwait haccept]
  simp

end Sys2Proof.Machine

/-! PROOFS, 42_control. NOP. -/

namespace Sys2Proof.Machine

/-- Settles O8: NOP's word is `encode`'s, below the words that read the bus, and NOP only emits. -/
theorem nopEmitsNoneAndChangesNothing : Obligations.NopEmitsNoneAndChangesNothing := by
  refine ⟨fun bus => ?_, fun s => rfl⟩
  rw [decode_op_bus_irrelevant (by decide) bus 0]
  exact decodeOfEncodeIsIdentity .nop

end Sys2Proof.Machine

/-! PROOFS, 60_exceptions. When a step goes on and when it is refused, and the verdicts that reject a candidate; from
this, that only the request of an unbuildable frame is refused (R107, log 8) and when each discard reason is reported
(R105, R110). -/

namespace Sys2Proof.Machine

/-! ## What a step answers -/

/-- R59, R64: a frame the serializer builds runs as TX_ENCODE of what it was built from. -/
theorem runTransaction_send_encodeFrame (c : Byte) (prm : Param) (s : State) :
    runTransaction (.send (encodeFrame c prm)) s = .next (s.sendCommand c prm) :=
  (runTransaction_instr (decode_send_encodeFrame c prm) s).trans (exec_commandInstr c prm s)

/-- R107: whatever the host presents, an unbuildable frame to be sent apart, the step answers a next state. -/
theorem State.Presentable.step_next {s : State} (h : s.Presentable) : ∃ t, step s = .next t := by
  match hinput : s.input with
  | [] => exact ⟨_, step_nil hinput⟩
  | .reset :: rest => exact ⟨_, step_reset hinput⟩
  | .transact (.op w bus) :: rest =>
    obtain ⟨t, hrun, -⟩ := runTransaction_op w bus { s with input := rest }
    exact ⟨t, (step_transact hinput).trans hrun⟩
  | .transact (.send f) :: rest =>
    obtain ⟨c, prm, rfl⟩ := h f rest hinput
    exact ⟨_, (step_transact hinput).trans (runTransaction_send_encodeFrame c prm _)⟩
  | .transact (.receive f) :: rest => exact ⟨_, (step_transact hinput).trans (runTransaction_receive f _)⟩

/-- Log 8: a frame to be sent that the serializer builds for no code and parameter is refused by name. -/
theorem step_send_unbuildable {s : State} {f : Frame} {rest : List HostAction}
    (hinput : s.input = .transact (.send f) :: rest) (hf : ∀ c prm, f ≠ encodeFrame c prm) :
    step s = .refused (.notACommandFrame f) := by
  rw [step_transact hinput, runTransaction_send, if_neg (hf _ _)]

/-- Log 8: a state that is not presentable has an unbuildable frame to be sent next. -/
theorem State.not_presentable_iff (s : State) :
    ¬ s.Presentable ↔ ∃ f rest, s.input = .transact (.send f) :: rest ∧ ∀ c prm, f ≠ encodeFrame c prm := by
  simp [State.Presentable]

/-! ## Verdicts that reject -/

/-- R110: the checksum is tested first. -/
theorem judge_eq_badChecksum_iff (f : Frame) : judge f = .discard .badChecksum ↔ f[14] ≠ checksum f := by
  obtain ⟨hchk, h⟩ | ⟨hchk, -, h⟩ | ⟨hchk, -, h⟩ := judge_cases f <;> simp [h, hchk]

/-- R110: the terminator is tested under a right checksum. -/
theorem judge_eq_badTerminator_iff (f : Frame) :
    judge f = .discard .badTerminator ↔ f[14] = checksum f ∧ f[15] ≠ terminator := by
  obtain ⟨hchk, h⟩ | ⟨hchk, hterm, h⟩ | ⟨-, hterm, h⟩ := judge_cases f
  · simp [h, hchk]
  · simp [h, hchk, hterm]
  · simp [h, hterm]

/-- R105: the verdict on a candidate names neither of the reasons of its first two bytes. -/
theorem judge_ne_badMarker_badCode (f : Frame) :
    judge f ≠ .discard .badMarker ∧ judge f ≠ .discard .badCode := by
  obtain ⟨-, h⟩ | ⟨-, -, h⟩ | ⟨-, -, h⟩ := judge_cases f <;> simp [h]

/-! ## The statements -/

/-- Settles O35: a presentable state's step goes on, and any other state's step is refused; `Fault` is
empty. -/
theorem onlyUnbuildableFramesAreRefused : Obligations.OnlyUnbuildableFramesAreRefused := by
  intro s
  refine ⟨nofun, ⟨State.Presentable.step_next, fun ⟨t, ht⟩ => ?_⟩, fun r => ⟨fun hr => ?_, ?_⟩⟩
  · by_contra hnot
    obtain ⟨f, rest, hinput, hf⟩ := s.not_presentable_iff.mp hnot
    simp [step_send_unbuildable hinput hf] at ht
  · have hnot : ¬ s.Presentable := fun h => by
      obtain ⟨t, ht⟩ := h.step_next
      simp [ht] at hr
    obtain ⟨f, rest, hinput, hf⟩ := s.not_presentable_iff.mp hnot
    have hrefused := step_send_unbuildable hinput hf
    exact ⟨f, rest, hinput, Host.Outcome.refused.inj (hr.symm.trans hrefused), hf⟩
  · rintro ⟨f, rest, hinput, rfl, hf⟩
    exact step_send_unbuildable hinput hf

/-- Settles O43: each case of the receiver reports at most one reason, and only a completed candidate has a verdict. -/
theorem discardReasonsAreDetectedAsListed : Obligations.DiscardReasonsAreDetectedAsListed := by
  refine ⟨by decide, fun b s t hexec => ?_⟩
  obtain rfl : s.receiveByte b = t := Host.Outcome.next.inj hexec
  rw [State.receiveByte_event, State.receiveByte_framer]
  obtain ⟨hstate, hb, h⟩ | ⟨hstate, hb, h⟩ | ⟨hstate, hb, h⟩ | ⟨hstate, hb, h⟩ | ⟨hstate, hp, h⟩ |
    ⟨hstate, hp, h⟩ := s.framer.rxByte_cases b <;> rw [h]
  · simp [hstate, show b = 0x0F#8 from hb]
  · simp [hstate, show b ≠ 0x0F#8 from hb]
  · simp [hstate, hb]
  · simp [hstate, hb]
  · have hp15 : s.framer.p ≠ 15 := by omega
    simp [hstate, hp15]
  · simp [hstate, hp, judge_ne_badMarker_badCode, judge_eq_badChecksum_iff, judge_eq_badTerminator_iff, terminator]

/-- Settles O34. -/
theorem operationsNeverTrap : Obligations.OperationsNeverTrap := by
  intro s w bus rest hinput
  rw [step_transact hinput]
  exact runTransaction_op w bus { s with input := rest }

end Sys2Proof.Machine

/-! PROOFS, 70_reset_and_hazards. Runs from states whose framers agree show the same (R121); then the echo of a command
(R125): its byte 1 is rejected if it is no response code, and what follows depends on the parameter's bytes, which can
start a candidate that the two bytes after the echo complete. -/

namespace Sys2Proof.Machine

/-! ## Runs that show the same -/

/-- R23 for a whole run: bytes outside the candidate change nothing that any number of steps show. Whether a step is
refused depends on the host's list alone. -/
theorem State.shows_agree {s t : State} (k : Nat) (hinv : s.Inv) (hagree : s.framer.Agree t.framer)
    (hinput : s.input = t.input) : State.shows k s = State.shows k t := by
  induction k generalizing s t with
  | zero => rfl
  | succ k ih =>
    by_cases hs : s.Presentable
    · obtain ⟨s', hstep⟩ := hs.step_next
      obtain ⟨t', hstep', hevent, hinput', hagree'⟩ := step_agree hinv hagree hinput hstep
      have hrest := ih (everyStepKeepsTheReceiverInvariant s s' hinv hstep) hagree' hinput'.symm
      simp only [State.shows, hstep, hstep', hevent, State.observe_congr hagree', hrest]
    · obtain ⟨f, rest, hnext, hf⟩ := s.not_presentable_iff.mp hs
      simp only [State.shows, step_send_unbuildable hnext hf, step_send_unbuildable (hinput ▸ hnext) hf]

/-- Settles O45: reset and RX_CLEAR both leave an empty candidate. -/
theorem resetAndClearBehaveAlike : Obligations.ResetAndClearBehaveAlike :=
  fun s k => State.shows_agree k Framer.inv_reset (Framer.agree_clear Framer.reset s.framer) rfl

/-! ## Bytes that start a candidate, and bytes that do not -/

/-- R89: one byte does not bring the receiver from WaitLen to Data. -/
theorem Framer.rxByte_ne_data_of_waitLen {fr : Framer} (hstate : fr.rxState = .waitLen) (b : Byte) :
    (fr.rxByte b).1.rxState ≠ .data := by
  by_cases hb : b = marker
  · simp [Framer.rxByte_waitLen_marker hstate hb]
  · simp [Framer.rxByte_waitLen_other hstate hb]

/-- R89: two bytes fed from WaitLen bring the receiver to Data exactly if they are the marker and a response code. -/
theorem Framer.rxByte_rxByte_data_iff {fr : Framer} (hstate : fr.rxState = .waitLen) (a b : Byte) :
    ((fr.rxByte a).1.rxByte b).1.rxState = .data ↔ a = marker ∧ b ∈ respCodes := by
  by_cases ha : a = marker
  · rw [Framer.rxByte_waitLen_marker hstate ha]
    by_cases hb : b ∈ respCodes
    · simp [Framer.rxByte_waitCode_code, ha, hb]
    · simp [Framer.rxByte_waitCode_other, hb]
  · rw [Framer.rxByte_waitLen_other hstate ha]
    exact iff_of_false (Framer.rxByte_ne_data_of_waitLen fr.clear_rxState b) fun h => ha h.1

/-- R89: outside Data a zero, which is neither the marker nor a response code, leaves the receiver in WaitLen. -/
theorem Framer.rxByte_zero_waitLen {fr : Framer} (hstate : fr.rxState ≠ .data) :
    (fr.rxByte 0x00#8).1.rxState = .waitLen := by
  cases h : fr.rxState with
  | waitLen => rw [Framer.rxByte_waitLen_other h (by decide), Framer.clear_rxState]
  | waitCode => rw [Framer.rxByte_waitCode_other h (by decide), Framer.clear_rxState]
  | data => exact absurd h hstate

/-- R89, Data: bytes that do not complete the candidate are counted. -/
theorem Framer.rxBytes_data_of_incomplete {fr : Framer} {bs : List Byte} (hstate : fr.rxState = .data)
    (hlen : fr.p.val + bs.length ≤ 15) :
    (fr.rxBytes bs).1.rxState = .data ∧ (fr.rxBytes bs).1.p.val = fr.p.val + bs.length := by
  induction bs generalizing fr with
  | nil => exact ⟨hstate, rfl⟩
  | cons b bs ih =>
    rw [List.length_cons] at hlen ⊢
    have hlt : fr.p.val + 1 < 16 := by omega
    rw [Framer.rxBytes_cons, Framer.rxByte_data_store hstate hlt]
    obtain ⟨hdata, hp⟩ := ih (fr := { rxState := .data, p := ⟨fr.p.val + 1, hlt⟩, rxBuf := fr.rxBuf.set fr.p b }) rfl
      (by show fr.p.val + 1 + bs.length ≤ 15; omega)
    exact ⟨hdata, hp.trans (Nat.add_right_comm _ _ _)⟩

/-- R91: a marker with no response code after it is dropped, and the bytes after the two are received from WaitLen. -/
theorem Framer.rxBytes_of_badCode {fr : Framer} {c : Byte} (hstate : fr.rxState = .waitLen) (hc : c ∉ respCodes)
    (bs : List Byte) :
    fr.rxBytes (marker :: c :: bs) =
      (((fr.store 0 marker).clear.rxBytes bs).1,
        .none :: .discard .badCode :: ((fr.store 0 marker).clear.rxBytes bs).2) := by
  rw [Framer.rxBytes_cons, Framer.rxByte_waitLen_marker hstate rfl, Framer.rxBytes_cons,
    Framer.rxByte_waitCode_other rfl hc]
  rfl

/-! ## The echo of a command -/

/-- R87: TX_ENCODE leaves the receiver in WaitLen, where an echo finds it. -/
theorem rxState_of_exec_txEncode {s t : State} {c : Byte} {prm : Param}
    (h : exec (.txEncode c prm) s = .next t) : t.framer.rxState = .waitLen := by
  cases h
  rfl

/-- R125: the bytes of an echo after its code: the parameter's, ten zeros, the checksum byte `k` and the terminator. -/
def echoTail (prm : Param) (k : Byte) : List Byte :=
  loByte prm :: hiByte prm :: (List.replicate 10 0x00#8 ++ [k, terminator])

/-- R82: the bytes of a command frame in offset order. -/
theorem toList_encodeFrame (c : Byte) (prm : Param) :
    (encodeFrame c prm).toList = marker :: c :: echoTail prm (checksum (encodeFrame c prm)) := rfl

@[simp] theorem length_echoTail (prm : Param) (k : Byte) : (echoTail prm k).length = 14 := rfl

/-- R125 case 2: a parameter that reads as the marker and a response code starts a candidate, which the rest of the echo
leaves two bytes short. -/
theorem Framer.rxBytes_echoTail_data {fr : Framer} {prm : Param} (k : Byte) (hstate : fr.rxState = .waitLen)
    (hlo : loByte prm = marker) (hhi : hiByte prm ∈ respCodes) :
    (fr.rxBytes (echoTail prm k)).1.rxState = .data ∧ (fr.rxBytes (echoTail prm k)).1.p = 14 := by
  have hdata := (Framer.rxByte_rxByte_data_iff hstate (loByte prm) (hiByte prm)).mpr ⟨hlo, hhi⟩
  have hp : ((fr.rxByte (loByte prm)).1.rxByte (hiByte prm)).1.p = 2 := by
    rw [Framer.rxByte_waitLen_marker hstate hlo, Framer.rxByte_waitCode_code rfl hhi]
  rw [echoTail, Framer.rxBytes_cons, Framer.rxBytes_cons]
  obtain ⟨hdata', hp'⟩ := Framer.rxBytes_data_of_incomplete
    (bs := List.replicate 10 0x00#8 ++ [k, terminator]) hdata (by simp [hp])
  refine ⟨hdata', Fin.ext ?_⟩
  rw [hp', hp]
  rfl

/-- R125 case 3: otherwise the zeros bring the receiver to WaitLen, and the terminator does so again if the checksum
reads as the marker. -/
theorem Framer.rxBytes_echoTail_waitLen {fr : Framer} {prm : Param} (k : Byte) (hstate : fr.rxState = .waitLen)
    (hprm : ¬ (loByte prm = marker ∧ hiByte prm ∈ respCodes)) :
    (fr.rxBytes (echoTail prm k)).1.rxState = .waitLen := by
  have hnotData := mt (Framer.rxByte_rxByte_data_iff hstate (loByte prm) (hiByte prm)).mp hprm
  have hzeros := Framer.rxBytes_waitLen_of_no_marker (Framer.rxByte_zero_waitLen hnotData)
    (bs := List.replicate 9 0x00#8) (fun b hb => List.eq_of_mem_replicate hb ▸ by decide)
  have hchk := Framer.rxByte_ne_data_of_waitLen hzeros k
  rw [echoTail, Framer.rxBytes_cons, Framer.rxBytes_cons, List.replicate_succ, List.cons_append, Framer.rxBytes_cons,
    Framer.rxBytes_append, Framer.rxBytes_cons, Framer.rxBytes_cons, Framer.rxBytes_nil]
  exact Framer.rxByte_zero_waitLen hchk

/-- Settles O54: an echo with a response code is an acceptable frame; in any other the fourteen bytes after the code are
too few for a frame. -/
theorem selfEchoEndsInOneOfThreeWays : Obligations.SelfEchoEndsInOneOfThreeWays := by
  intro s t c prm hexec
  have hstate := rxState_of_exec_txEncode hexec
  refine ⟨fun hc => ?_, fun hc => ?_⟩
  · have haccept := (accept_encodeFrame_iff c prm).mpr hc
    rw [acceptableFramesAreEmitted _ _ hstate haccept]
    exact ⟨rfl, rfl⟩
  · rw [toList_encodeFrame, Framer.rxBytes_of_badCode hstate hc]
    constructor
    · intro g
      have htooFew := (Framer.inv_clear (t.framer.store 0 marker)).frame_notMem_rxBytes
        (bs := echoTail prm (checksum (encodeFrame c prm))) (by simp) g
      simpa using htooFew
    · dsimp only
      split_ifs with hprm
      · exact Framer.rxBytes_echoTail_data _ rfl hprm.1 hprm.2
      · exact Framer.rxBytes_echoTail_waitLen _ rfl hprm

/-! ## The stale candidate -/

/-- R125 case 2: the candidate that the bytes of an echo after its code make with the next two bytes. -/
def staleCandidate (c : Byte) (prm : Param) (x y : Byte) : Frame :=
  #v[loByte prm, hiByte prm, 0, 0, 0, 0, 0, 0, 0, 0, 0, 0, checksum (encodeFrame c prm), terminator, x, y]

theorem toList_staleCandidate (c : Byte) (prm : Param) (x y : Byte) :
    (staleCandidate c prm x y).toList = echoTail prm (checksum (encodeFrame c prm)) ++ [x, y] := rfl

/-- R80: the checksum of the stale candidate covers the parameter's high byte and the checksum of the echo. -/
theorem checksum_staleCandidate (c : Byte) (prm : Param) (x y : Byte) :
    checksum (staleCandidate c prm x y) = hiByte prm + checksum (encodeFrame c prm) := by
  rw [checksum]
  simp [checksumSum, staleCandidate, terminator, BitVec.ofNat_add]

/-- R110, log 23: the stale candidate is judged like any other. -/
theorem judge_staleCandidate_eq_frame_iff (c : Byte) (prm : Param) (x y : Byte) :
    (∃ g, judge (staleCandidate c prm x y) = .frame g) ↔
      x = hiByte prm + checksum (encodeFrame c prm) ∧ y = 0x00#8 := by
  simp only [judge_eq_frame_iff, exists_and_left, exists_eq', and_true, isValidFrame_iff, checksum_staleCandidate]
  rfl

/-- R89, R125 case 2: the two bytes after the echo complete the stale candidate and have it judged. -/
theorem Framer.rxBytes_staleEcho {fr : Framer} {c : Byte} {prm : Param} (hstate : fr.rxState = .waitLen)
    (hc : c ∉ respCodes) (hlo : loByte prm = marker) (hhi : hiByte prm ∈ respCodes) (x y : Byte) :
    fr.rxBytes ((encodeFrame c prm).toList ++ [x, y]) =
      ({ rxState := .waitLen, p := 0, rxBuf := staleCandidate c prm x y },
        .none :: .discard .badCode :: (List.replicate 15 .none ++ [judge (staleCandidate c prm x y)])) := by
  have hcandidate := Framer.rxBytes_of_waitLen (fr := (fr.store 0 marker).clear) (f := staleCandidate c prm x y)
    rfl hlo hhi
  rw [toList_staleCandidate] at hcandidate
  rw [toList_encodeFrame, List.cons_append, List.cons_append, Framer.rxBytes_of_badCode hstate hc, hcandidate]

/-- Settles O55: the receiver's checks of marker and code are those the parameter's bytes have passed. -/
theorem staleEchoCandidateIsJudgedLikeAnyOther : Obligations.StaleEchoCandidateIsJudgedLikeAnyOther := by
  intro s t c prm x y hexec hc hlo hhi
  have hstate := rxState_of_exec_txEncode hexec
  rw [Framer.rxBytes_staleEcho hstate hc hlo hhi]
  refine ⟨rfl, rfl, ?_⟩
  simpa using judge_staleCandidate_eq_frame_iff c prm x y

/-- R110: a candidate that does not end in the terminator is discarded. -/
theorem judge_discard_of_not_terminator {f : Frame} (h : f[15] ≠ terminator) : ∃ r, judge f = .discard r := by
  obtain ⟨-, hjudge⟩ | ⟨-, -, hjudge⟩ | ⟨-, hterm, -⟩ := judge_cases f
  · exact ⟨_, hjudge⟩
  · exact ⟨_, hjudge⟩
  · exact absurd hterm h

/-- R125, R128: of an acceptable frame that starts at most one byte late, the marker or the code is the second byte,
which is not the terminator, and at most fifteen bytes are left. -/
theorem exists_second_byte_of_accept {pre : List Byte} {v : Frame} (hpre : pre.length ≤ 1) (haccept : accept v = true) :
    ∃ x y rest, pre ++ v.toList = [x, y] ++ rest ∧ y ≠ terminator ∧ rest.length ≤ 15 := by
  obtain ⟨h0, h1, -⟩ := (accept_iff v).mp haccept
  match pre with
  | [] =>
    refine ⟨v[0], v[1], v.toList.drop 2, ?_, fun hterm => ?_, by simp⟩
    · rw [List.nil_append, toList_eq_cons_drop v, drop_toList_eq_cons v (by decide)]
      rfl
    · rw [hterm] at h1
      exact absurd h1 (by decide)
  | [b] =>
    refine ⟨b, v[0], v.toList.drop 1, ?_, fun hterm => ?_, by simp⟩
    · rw [toList_eq_cons_drop v]
      rfl
    · rw [hterm] at h0
      exact absurd h0 (by decide)

/-- Settles O56: the second byte completes the stale candidate without a terminator, and from WaitLen the bytes left are
too few for a frame. -/
theorem responsesOverAStaleEchoAreLost : Obligations.ResponsesOverAStaleEchoAreLost := by
  intro s t c prm pre v hexec hc hlo hhi hpre haccept
  have hstate := rxState_of_exec_txEncode hexec
  obtain ⟨x, y, rest, hbytes, hy, hrest⟩ := exists_second_byte_of_accept hpre haccept
  obtain ⟨r, hjudge⟩ := judge_discard_of_not_terminator (f := staleCandidate c prm x y) hy
  rw [List.append_assoc, hbytes, ← List.append_assoc, Framer.rxBytes_append,
    Framer.rxBytes_staleEcho hstate hc hlo hhi, hjudge]
  refine ⟨⟨r, rfl⟩, fun g => ?_⟩
  have hinv := Framer.inv_of_waitLen (fr := { rxState := .waitLen, p := 0, rxBuf := staleCandidate c prm x y }) rfl rfl
  have htooFew := hinv.frame_notMem_rxBytes (by simpa using hrest) g
  simpa using htooFew

end Sys2Proof.Machine

/-! PROOFS, other. Reset: the state the block starts in (R34), and the step that brings it back there (R120). -/

namespace Sys2Proof.Machine

/-- R34 and log 3: the candidate buffer after reset. -/
@[simp] theorem Framer.reset_rxBuf_getElem (i : Fin 16) : Framer.reset.rxBuf[i] = 0x00#8 :=
  Vector.getElem_replicate i.isLt

/-- R28, R34: what is observed after reset. -/
theorem State.observe_reset : State.reset.observe = (0#2, 0#4) := rfl

/-- Settles O31. -/
theorem resetStateIsIdleReceiver : Obligations.ResetStateIsIdleReceiver :=
  ⟨Framer.reset_rxState, Framer.reset_p, State.reset_event, State.observe_reset, State.reset_input,
    Framer.reset_rxBuf_getElem⟩

/-- Settles O32: the step is a reset of the state whose list has lost that action, and a reset keeps the list. -/
theorem hostResetClearsAndEmitsNothing : Obligations.HostResetClearsAndEmitsNothing :=
  fun _ _ hinput =>
    ⟨_, step_reset hinput, Framer.reset_rxState, Framer.reset_p, State.hostReset_event _, State.hostReset_input _⟩

end Sys2Proof.Machine
